-- ==== Sys2Proof/Word.lean ====
section
/-! DEFINITION. The word types of the model: register words and operand words of 32 bits (R7, R61), descriptors of
16 bits (R80), register offsets and operation numbers of 12 bits (R80), the six interrupt sources (R24), bytes. -/

namespace Sys2Proof

/-- A register word or an operand word (R7, R8, R61). -/
abbrev Word := BitVec 32

/-- A descriptor (R80). -/
abbrev Half := BitVec 16

/-- The low twelve bits of a descriptor: a register offset, an operation number or an event number (R80). -/
abbrev Offset := BitVec 12

/-- One bit per interrupt source (R24). -/
abbrev Sources := BitVec 6

/-- A byte of the item stream. -/
abbrev Byte := BitVec 8

end Sys2Proof
end

