-- ==== Sys2Proof/Config.lean ====
section
/-! DEFINITION. What the spec leaves to the implementation or to no one: the free values (opaque, with no body, so no
proof can see one) and the defaults of the parameters of R6, which `State.reset` takes. A parameter itself stands in
State (`Params`), so a statement about every state is a statement about every value of the parameters. -/

namespace Sys2Proof

/-- The `n`-th free draw of a bus read (R33): what the positions outside the named fields return. Nothing constrains
it (log entry 3). -/
opaque Config.freeWord : Nat → Word

/-- The `n`-th free answer of the clock subsystem (R180), used where no answer is placed in State. Nothing constrains
it (log entry 4). -/
opaque Config.freeAnswer : Nat → Bool

/-- `P_OFF_*`: the offset of each register (R6, R21). The spec's offsets are pairwise distinct multiples of 4, which no
definition here asks of other values (log entry 23). -/
structure Offsets where
  intEnable : Offset
  intStatus : Offset
  globalCon : Offset
  sizeCon0 : Offset
  sizeCon1 : Offset
  memCon : Offset
  memSrcPitch : Offset
  memGmcSetting0 : Offset
  fifoCon : Offset
  memStartAddr : Offset
  deriving DecidableEq, Repr

/-- Defaults of `P_OFF_*` (R6, R21), which the opcode table's descriptors hold. PRESUMED by the spec, `[from general
knowledge, not in source]` (log entry 1). -/
def Config.offsets : Offsets :=
  { intEnable := 0x000#12, intStatus := 0x004#12, globalCon := 0x010#12, sizeCon0 := 0x014#12, sizeCon1 := 0x018#12,
    memCon := 0x024#12, memSrcPitch := 0x02C#12, memGmcSetting0 := 0x030#12, fifoCon := 0x040#12,
    memStartAddr := 0xF00#12 }

/-- Default of `P_GMC` (R6, R92). PRESUMED by the spec, `[from general knowledge, not in source]` (log entry 1). -/
def Config.gmc : Word := 0x40402020#32

/-- Default of `P_BT601_SEL` (R6, R89). PRESUMED by the spec (log entry 1). -/
def Config.bt601Sel : BitVec 4 := 6#4

/-- Default of `P_EVENTS_WHILE_STOPPED` (R6, R203). -/
def Config.eventsWhileStopped : Bool := true

/-- Bus address of register offset 0 in `State.reset`; the spec leaves `P_BASE` open. DESIGN CHOICE (log entry 2). -/
def Config.base : Word := 0#32

/-- The variant's FIFO capacity in `State.reset`; the spec leaves `P_FIFO_CAPACITY` open. DESIGN CHOICE: the scenario
value 8192 of the spec's L1-6 (log entry 2). -/
def Config.fifoCapacity : Word := 8192#32

/-- The variant's format list in `State.reset`; the spec leaves `P_FORMATS` open. DESIGN CHOICE: the example of R182,
XRGB8888 and RGB565 (log entry 2). -/
def Config.formats : List Word := [0x34325258#32, 0x36314752#32]

/-- Whether the instance of `State.reset` has a command-queue client; the spec leaves `P_BATCH_CAPABLE` open. DESIGN
CHOICE (log entry 2). -/
def Config.batchCapable : Bool := true

end Sys2Proof
end

