-- ==== Sys2Proof/Syntax.lean ====
section
/-! DEFINITION. The instructions: one constructor per row of spec/opcode_table.json, in the table's order. Five
classes of register access (R81) over the ten registers of R21, sixteen controller operations (R83), three agent
events (R84) and the illegal descriptor (R97). -/

namespace Sys2Proof

/-- The ten registers of R21. -/
inductive Reg where
  | intEnable
  | intStatus
  | globalCon
  | sizeCon0
  | sizeCon1
  | memCon
  | memSrcPitch
  | memGmcSetting0
  | fifoCon
  | memStartAddr
  deriving DecidableEq, Repr

/-- An item that no row but ILLEGAL matches (R97): its descriptor, and the operand words its class has (R80, R98). -/
structure IllegalItem where
  descriptor : Half
  words : List Word
  deriving DecidableEq, Repr

/-- The item a descriptor and its operand words stand for (R80 to R84, R97, R98). An operand word is a `Word`, except
that `evEngineEvent` carries the six-bit set its word holds (R98). -/
inductive Instr where
  -- `RD reg` (R110)
  | rdIntEnable
  | rdIntStatus
  | rdGlobalCon
  | rdSizeCon0
  | rdSizeCon1
  | rdMemCon
  | rdMemSrcPitch
  | rdMemGmcSetting0
  | rdFifoCon
  | rdMemStartAddr
  -- `WR reg, v` (R111, R112)
  | wrIntEnable (v : Word)
  | wrIntStatus (v : Word)
  | wrGlobalCon (v : Word)
  | wrSizeCon0 (v : Word)
  | wrSizeCon1 (v : Word)
  | wrMemCon (v : Word)
  | wrMemSrcPitch (v : Word)
  | wrMemGmcSetting0 (v : Word)
  | wrFifoCon (v : Word)
  | wrMemStartAddr (v : Word)
  -- `WRM reg, v, m` (R113)
  | wrmIntEnable (v m : Word)
  | wrmIntStatus (v m : Word)
  | wrmGlobalCon (v m : Word)
  | wrmSizeCon0 (v m : Word)
  | wrmSizeCon1 (v m : Word)
  | wrmMemCon (v m : Word)
  | wrmMemSrcPitch (v m : Word)
  | wrmMemGmcSetting0 (v m : Word)
  | wrmFifoCon (v m : Word)
  | wrmMemStartAddr (v m : Word)
  -- `BWR reg, v` (R114)
  | bwrIntEnable (v : Word)
  | bwrIntStatus (v : Word)
  | bwrGlobalCon (v : Word)
  | bwrSizeCon0 (v : Word)
  | bwrSizeCon1 (v : Word)
  | bwrMemCon (v : Word)
  | bwrMemSrcPitch (v : Word)
  | bwrMemGmcSetting0 (v : Word)
  | bwrFifoCon (v : Word)
  | bwrMemStartAddr (v : Word)
  -- `BWRM reg, v, m` (R115)
  | bwrmIntEnable (v m : Word)
  | bwrmIntStatus (v m : Word)
  | bwrmGlobalCon (v m : Word)
  | bwrmSizeCon0 (v m : Word)
  | bwrmSizeCon1 (v m : Word)
  | bwrmMemCon (v m : Word)
  | bwrmMemSrcPitch (v m : Word)
  | bwrmMemGmcSetting0 (v m : Word)
  | bwrmFifoCon (v m : Word)
  | bwrmMemStartAddr (v m : Word)
  -- Controller operations (R83, operands R98)
  | opConfigureGeometry (width height refreshRate bpc useBatch : Word)
  | opStart
  | opStop
  | opEnableVblank
  | opDisableVblank
  | opRegisterCallback (fn ctx : Word)
  | opClearCallback
  | opConfigureLayer (index address pitch format useBatch : Word)
  | opClockEnable
  | opClockDisable
  | opQuerySupportedFormats
  | opTranslate (format : Word)
  | opComputeFifoParams (capacity : Word)
  | opResolveFifoCapacity
  | opBatchBegin
  | opBatchSubmit
  -- Agent events (R84)
  | evEngineEvent (bits : Sources)
  | evIrqHandler
  | evBatchExecute
  -- Any other descriptor (R97)
  | illegal (d : IllegalItem)
  deriving DecidableEq, Repr

end Sys2Proof
end

