-- ==== Sys2Proof/Machine/State.lean ====
section
/-! DEFINITION. The state of the RDMA block and its controller (10_state.md), the parameters of R6 that an instance
takes, what each agent is in the middle of (R12, R64, R68), and the state at bind (R231, R232). Everything is plain
data. Fields the spec names come first; the model's own fields follow and are marked. -/

namespace Sys2Proof.Machine

/-! ## The register set (R21 to R33): the stored state of a register is its named fields only -/

/-- The named fields of the ten registers. -/
structure Regs where
  /-- `INT_ENABLE[5:0]` (R22). -/
  intEnable : Sources
  /-- `INT_STATUS[5:0]` (R23). -/
  intStatus : Sources
  /-- `GLOBAL_CON.ENGINE_EN` (R25). -/
  engineEn : BitVec 1
  /-- `GLOBAL_CON.MODE_MEMORY` (R25). -/
  modeMemory : BitVec 1
  /-- `SIZE_CON_0.WIDTH` (R26). -/
  width : BitVec 12
  /-- `SIZE_CON_0.MATRIX_ENABLE` (R26). -/
  matrixEnable : BitVec 1
  /-- `SIZE_CON_0.MATRIX_INT_MTX_SEL` (R26). -/
  mtxSel : BitVec 4
  /-- `SIZE_CON_1.HEIGHT` (R27). -/
  height : BitVec 20
  /-- `MEM_CON.INPUT_FORMAT` (R28). -/
  inputFormat : BitVec 4
  /-- `MEM_CON.INPUT_SWAP` (R28). -/
  inputSwap : BitVec 1
  /-- `MEM_SRC_PITCH.PITCH` (R29). -/
  pitch : BitVec 16
  /-- `MEM_GMC_SETTING_0.GMC` (R30). -/
  gmc : Word
  /-- `FIFO_CON.FIFO_UNDERFLOW_EN` (R31). -/
  fifoUnderflowEn : BitVec 1
  /-- `FIFO_CON.FIFO_PSEUDO_SIZE` (R31). -/
  fifoPseudoSize : BitVec 15
  /-- `FIFO_CON.OUTPUT_VALID_FIFO_THRESHOLD` (R31). -/
  fifoThreshold : BitVec 16
  /-- `MEM_START_ADDR.ADDR` (R32). -/
  startAddr : Word
  deriving DecidableEq, Repr

/-! ## Controller data (R35 to R43) -/

/-- One `DeviceVariantData` record (R35). -/
structure Variant where
  fifoCapacity : Word
  supportedFormats : List Word
  deriving DecidableEq, Repr

/-- A registered callback: a function and its opaque context, one indivisible value (R38). -/
structure Callback where
  fn : Word
  ctx : Word
  deriving DecidableEq, Repr

/-- An entry of a command batch (R40). The register stands for its offset: an offset that is no register's is never
recorded (R114, R115). -/
inductive BatchEntry where
  | write (r : Reg) (v : Word)
  | writeMasked (r : Reg) (v m : Word)
  deriving DecidableEq, Repr

/-- The command batch of the instance (R40). `recording` is the spec's `Open`. -/
inductive Batch where
  | noBatch
  | recording (entries : List BatchEntry)
  | submitted (entries : List BatchEntry)
  deriving DecidableEq, Repr

/-- The model faults of R212, which a run records and goes on with. -/
inductive ModelFault where
  /-- An access to an offset that is no register's (R63). -/
  | undefinedRegister (off : Offset)
  /-- A bus access, or a batch entry applied, with the clock off (R78). -/
  | unclockedAccess (off : Offset)
  deriving DecidableEq, Repr

/-- The refusals of R213: each sets the mark `refused` and ends the operation. -/
inductive SpecRefusal where
  | illegalDescriptor | nonzeroStatusWrite | maskedStatusWrite | noOpenBatch | appendAfterSubmit | overlappingBatch
  | batchNotCapable | badOperand | layerIndexNonzero | capacityOutOfRange | clockEnableInIrq | clockUnderflow
  deriving DecidableEq, Repr

/-- The errors of R211, returned to a caller. -/
inductive CtrlError where
  | clockAcquisitionFailure | resourceUnavailable | invalidConfigurationData
  deriving DecidableEq, Repr

/-- The two results of the interrupt handler (R208). -/
inductive HandlerResult where
  | handled | notHandled
  deriving DecidableEq, Repr

/-- The agents of R12. -/
inductive Agent where
  | caller | irq | engine | coproc | platform
  deriving DecidableEq, Repr

/-- The two execution contexts (R214): the caller's and the interrupt's. -/
inductive Context where
  | caller | irq
  deriving DecidableEq, Repr

/-- The agent that runs in a context. -/
def Context.agent (c : Context) : Agent :=
  match c with
  | .caller => .caller
  | .irq => .irq

/-- The kinds of bus transaction an `Access` event names (R110, R111, R113). -/
inductive AccessKind where
  | rd | wr | wrm
  deriving DecidableEq, Repr

/-- The events of the history (R43). -/
inductive Event where
  | access (agent : Agent) (kind : AccessKind) (r : Reg) (v m result : Option Word)
  | engineEvent (bits : Sources)
  | notify (ctx : Word)
  | handlerReturn (result : HandlerResult)
  | batchApplied (entries : List BatchEntry)
  | clockResult (error : Option CtrlError)
  deriving DecidableEq, Repr

/-! ## Operations, and the indivisible actions they expand to -/

/-- The controller operations of 43_device_control.md, `batch_execute` apart: what the caller may issue (R215) and
what a callback body may hold (R207). `clockEnable` in a body is refused when it runs (R180). -/
inductive CtrlOp where
  | configureGeometry (width height refreshRate bpc useBatch : Word)
  | start
  | stop
  | enableVblank
  | disableVblank
  | registerCallback (fn ctx : Word)
  | clearCallback
  | configureLayer (index address pitch format useBatch : Word)
  | clockEnable
  | clockDisable
  | querySupportedFormats
  | batchBegin
  | batchSubmit
  deriving DecidableEq, Repr

/-- Everything the caller may issue: a register access (R110 to R115), a controller operation, or one of the pure
operations of 41 and 42. -/
inductive Operation where
  | rd (r : Reg)
  | wr (r : Reg) (v : Word)
  | wrm (r : Reg) (v m : Word)
  | bwr (r : Reg) (v : Word)
  | bwrm (r : Reg) (v m : Word)
  | ctrl (op : CtrlOp)
  | translate (format : Word)
  | computeFifoParams (capacity : Word)
  | resolveFifoCapacity
  deriving DecidableEq, Repr

/-- One indivisible action of an operation: a single bus transaction (R64), or a step that reaches no register.
Another agent may act before each action (R68). -/
inductive Action where
  | rd (r : Reg)
  | wr (r : Reg) (v : Word)
  /-- The first transaction of a masked write (R69, R113). -/
  | maskedRead (r : Reg)
  /-- The second transaction of a masked write, over the word the first one read (R69, R113). -/
  | maskedWrite (r : Reg) (v m : Word)
  | record (e : BatchEntry)
  /-- `configure_geometry`'s last step: resolve the capacity, then put the FIFO-control word (R172). -/
  | putFifo (useBatch : Bool)
  | setCallback (cb : Option Callback)
  | clockEnable
  | clockDisable
  | queryFormats
  | batchBegin
  | batchSubmit
  | translate (format : Word)
  | computeFifoParams (capacity : Word)
  | resolveCapacity
  deriving DecidableEq, Repr

/-- The internal format codes (R88). -/
inductive HwCode where
  | rgb565 | rgb888 | rgba8888 | argb8888 | uyvy | yuyv
  deriving DecidableEq, Repr

/-- The result of `translate` (R130). -/
structure Translation where
  hwCode : HwCode
  swap : BitVec 1
  needsColorMatrix : Bool
  deriving DecidableEq, Repr

/-- What an operation last returned to its invoker (R200): the model's own place for a return value. -/
inductive Return where
  | nothing
  | ok
  | word (w : Word)
  | formats (fs : List Word)
  | translation (t : Translation)
  | fifoParams (pseudoSize threshold : Nat)
  | capacity (c : Word)
  | handler (r : HandlerResult)
  | error (e : CtrlError)
  | faulted (f : ModelFault)
  | refused (r : SpecRefusal)
  deriving DecidableEq, Repr

/-- An execution context in the middle of an operation. The model's own (R68): what is left of the operation, the word
the first transaction of a masked write read, and what the last action returned. -/
structure Thread where
  todo : List Action
  old : Word
  ret : Return
  deriving DecidableEq, Repr

/-- Where a handler run stands (R206). The model's own: the phases of the spec's pseudocode. -/
inductive HandlerPhase where
  /-- No run in progress. -/
  | idle
  /-- The next step is the status clear. -/
  | clear
  /-- The next step is the read of the callback slot. -/
  | readSlot
  /-- The slot held `cb`; the next step notifies. -/
  | invoke (cb : Callback)
  /-- The body runs; `rest` are its operations not yet begun. -/
  | body (rest : List CtrlOp)
  deriving DecidableEq, Repr

/-- One step of an agent at an interleaving point of another agent's operation (R68, R215). The model's own. -/
inductive Move where
  /-- The engine raises status bits (R203). -/
  | engineEvent (bits : Sources)
  /-- The coprocessor applies the submitted batch (R185). -/
  | batchExecute
  /-- The platform starts a handler run (R204). -/
  | deliver
  /-- The handler run in progress takes one step (R206). -/
  | irqStep
  /-- The caller issues an operation. -/
  | issue (op : Operation)
  /-- The caller's operation in progress takes one action. -/
  | callerStep
  deriving DecidableEq, Repr

/-! ## Parameters (R6) -/

/-- `P_HWCODE`: the numeric value of each internal format code (R88). -/
structure HwCodeValues where
  rgb565 : BitVec 4
  rgb888 : BitVec 4
  rgba8888 : BitVec 4
  argb8888 : BitVec 4
  uyvy : BitVec 4
  yuyv : BitVec 4
  deriving DecidableEq, Repr

/-- The parameters of R6 that are not fields of the instance. They never change. -/
structure Params where
  /-- `P_BASE`. -/
  base : Word
  /-- `P_OFF_*`. -/
  offsets : Offsets
  /-- `P_HWCODE`. -/
  hwCodes : HwCodeValues
  /-- `P_GMC`. -/
  gmc : Word
  /-- `P_BT601_SEL`. -/
  bt601Sel : BitVec 4
  /-- `P_EVENTS_WHILE_STOPPED`. -/
  eventsWhileStopped : Bool
  /-- `P_CALLBACK_BODY`: the body of each callback (R207); a callback not listed has the empty body. -/
  bodies : List (Callback × List CtrlOp)
  deriving DecidableEq, Repr

/-! ## The state -/

/-- The state of one instance. -/
structure State where
  /-- The register set (R21). -/
  regs : Regs
  /-- `variant` (R35). -/
  variant : Variant
  /-- `fifo_override` (R36). -/
  fifoOverride : Word
  /-- `batch_capable` (R37). -/
  batchCapable : Bool
  /-- `callback` (R38). -/
  callback : Option Callback
  /-- `clk_count` (R39). -/
  clkCount : Nat
  /-- `batch` (R40). -/
  batch : Batch
  /-- `faults` (R42), a set: a list with no repeats, oldest first. -/
  faults : List ModelFault
  /-- `refused` (R42). -/
  refused : Bool
  /-- `history` (R43), oldest first. -/
  history : List Event
  /-- The parameters of R6. -/
  params : Params
  /-- The model's own: the caller's context. -/
  caller : Thread
  /-- The model's own: the interrupt context. -/
  irq : Thread
  /-- The model's own: the handler run in progress (R209). -/
  phase : HandlerPhase
  /-- The model's own: what the other agents do at each coming interleaving point, the next point first (R68). -/
  between : List (List Move)
  /-- The model's own: the platform's coming answers to `clock_enable`, the next first (R180). -/
  clockAnswers : List Bool
  /-- The model's own: how many free values have been drawn (R33, R180). -/
  draws : Nat
  /-- The model's own: the bytes of the items still to be issued, the next first (R2, R80). -/
  stream : List Byte
  deriving DecidableEq, Repr

/-- How the machine stops. A model fault of R212 is not one of these: it is recorded in State and the run goes on. -/
inductive Fault where
  /-- `EV engine_event` while the engine may raise none (R203: not enabled). Raised by `execEvEngineEvent`. Safe: the
  spec gives no step here, so no run of the block is left out. -/
  | engineEventNotEnabled
  /-- `EV batch_execute` with no submitted batch (R185: not enabled). Raised by `execEvBatchExecute`. Safe: the spec
  gives no step here. -/
  | batchExecuteNotEnabled
  deriving DecidableEq, Repr

/-- What the machine has no meaning for. A refusal of R213 is not one of these: it is recorded in State. -/
inductive Refusal where
  /-- An instruction with no meaning yet. Raised by no arm of `exec`. Safe. -/
  | notModelled (mnemonic : String)
  /-- The stream ends inside an item (R98). Raised by `step`. Safe: no such item exists. -/
  | truncatedItem
  /-- `EV engine_event` with a one among bits 31:6 of its operand (R98). Raised by `step`. Safe: no such item
  exists. -/
  | reservedEventBits
  deriving DecidableEq, Repr

/-! ## Reset and bind -/

/-- The hardware's fields at reset over a draw of every field (R231): the interrupt enables other than FRAME_END are 0,
every other field is drawn. -/
def Regs.atReset (drawn : Regs) : Regs := { drawn with intEnable := drawn.intEnable &&& 0b000100#6 }

/-- The draw `State.reset` takes: every unspecified field is 0. DESIGN CHOICE (log entry 6): the spec draws them. -/
def Regs.zero : Regs :=
  { intEnable := 0, intStatus := 0, engineEn := 0, modeMemory := 0, width := 0, matrixEnable := 0, mtxSel := 0,
    height := 0, inputFormat := 0, inputSwap := 0, pitch := 0, gmc := 0, fifoUnderflowEn := 0, fifoPseudoSize := 0,
    fifoThreshold := 0, startAddr := 0 }

/-- A context with no operation in progress. -/
def Thread.start : Thread := { todo := [], old := 0, ret := .nothing }

/-- The defaults of `P_HWCODE` (R88, log entry 1). -/
def HwCodeValues.default : HwCodeValues :=
  { rgb565 := 0, rgb888 := 1, rgba8888 := 2, argb8888 := 3, uyvy := 4, yuyv := 5 }

/-- The defaults of R6; `P_BASE` and `P_CALLBACK_BODY` are open (log entry 2). -/
def Params.default : Params :=
  { base := Config.base, offsets := Config.offsets, hwCodes := HwCodeValues.default, gmc := Config.gmc,
    bt601Sel := Config.bt601Sel, eventsWhileStopped := Config.eventsWhileStopped, bodies := [] }

/-- A new instance (R231, R232): the hardware's fields over a draw, the controller state of R232, and the variant, the
override and the batch capability that bind found (R230). -/
def State.instantiate (drawn : Regs) (p : Params) (v : Variant) (fifoOverride : Word) (batchCapable : Bool) : State :=
  { regs := drawn.atReset, variant := v, fifoOverride := fifoOverride, batchCapable := batchCapable,
    callback := none, clkCount := 0, batch := .noBatch, faults := [], refused := false, history := [], params := p,
    caller := Thread.start, irq := Thread.start, phase := .idle, between := [], clockAnswers := [], draws := 0,
    stream := [] }

/-- The machine right after reset and bind, at the parameters' defaults (log entries 2 and 6). -/
def State.reset : State :=
  State.instantiate Regs.zero Params.default
    { fifoCapacity := Config.fifoCapacity, supportedFormats := Config.formats } 0 Config.batchCapable

end Sys2Proof.Machine
end

