-- ==== Sys2Proof/Machine/Fifo.lean ====
section
/-! DEFINITION. The FIFO sizing policy (42_fifo_sizing.md): exact arithmetic on naturals, truncating division. -/

namespace Sys2Proof.Machine

/-- `pseudo_size_field` of a capacity (R151). -/
def pseudoSizeField (c : Nat) : Nat := c / 16

/-- `threshold_field` of a capacity: the product first, then two truncations (R151). -/
def thresholdField (c : Nat) : Nat := c * 7 / 10 / 16

/-- `fifo_word(C)` (R90, R155). -/
def fifoWord (c : Word) : Word :=
  0x80000000#32 ||| (BitVec.ofNat 32 (pseudoSizeField c.toNat) <<< 16) ||| BitVec.ofNat 32 (thresholdField c.toNat)

/-- The admitted capacities (R153). -/
def capacityAdmitted (c : Word) : Bool := decide (0 < c.toNat) && decide (c.toNat < 2 ^ 19)

/-- The capacity source: a nonzero override wins over the variant's default (R150). -/
def chosenCapacity (fifoOverride variantCapacity : Word) : Word :=
  if fifoOverride = 0#32 then variantCapacity else fifoOverride

/-- `resolve_fifo_capacity`: none where R150 refuses. -/
def resolveCapacity (fifoOverride variantCapacity : Word) : Option Word :=
  if capacityAdmitted (chosenCapacity fifoOverride variantCapacity) then
    some (chosenCapacity fifoOverride variantCapacity)
  else none

end Sys2Proof.Machine
end

