-- ==== Sys2Proof/Machine/Flags.lean ====
section
/-! DEFINITION. The block's only flags, the six bits of `INT_STATUS`, and what the interrupt line makes of them
(R23, R24, R41, R201 to R203). -/

namespace Sys2Proof.Machine

/-- The interrupt sources (R24, C1: six). -/
inductive Source where
  | regUpdate | frameStart | frameEnd | eofAbnormal | fifoUnderflow | targetLine
  deriving DecidableEq, Repr

/-- The bit of a source in `INT_ENABLE` and `INT_STATUS` (R24). -/
def sourceBit (x : Source) : Sources :=
  match x with
  | .regUpdate => 0b000001#6
  | .frameStart => 0b000010#6
  | .frameEnd => 0b000100#6
  | .eofAbnormal => 0b001000#6
  | .fifoUnderflow => 0b010000#6
  | .targetLine => 0b100000#6

/-- The two states of the interrupt state machine (R41, R201). -/
inductive IrqState where
  | idle | signaled
  deriving DecidableEq, Repr

/-- The level-sensitive interrupt line: some enabled source has its status bit set (R201). -/
def lineAsserted (g : Regs) : Bool := (g.intEnable &&& g.intStatus) != 0#6

/-- `irq_state`, a function of the two registers (R41, R201). -/
def irqState (g : Regs) : IrqState := if lineAsserted g then .signaled else .idle

/-- An engine event sets the status bits in `bits` (R203). -/
def setStatus (bits : Sources) (g : Regs) : Regs := { g with intStatus := g.intStatus ||| bits }

/-- A write of 0 to `INT_STATUS` clears every status bit at once (R23, R112). -/
def clearStatus (g : Regs) : Regs := { g with intStatus := 0#6 }

/-- Whether the engine may raise status events (R203). -/
def engineMayRaise (s : State) : Bool := s.regs.engineEn == 1#1 || s.params.eventsWhileStopped

end Sys2Proof.Machine
end

