-- ==== Sys2Proof/Machine/Format.lean ====
section
/-! DEFINITION. The format translator (41_format_translator.md) and the pixel-format codes (R95). -/

namespace Sys2Proof.Machine

/-- `fourcc(a,b,c,d) = a | (b << 8) | (c << 16) | (d << 24)` (R95). -/
def fourcc (a b c d : Char) : Word :=
  BitVec.ofNat 32 a.toNat ||| (BitVec.ofNat 32 b.toNat <<< 8) ||| (BitVec.ofNat 32 c.toNat <<< 16)
    ||| (BitVec.ofNat 32 d.toNat <<< 24)

/-- The fourteen named formats (R95). -/
inductive PixelFormat where
  | rgb565 | bgr565 | rgb888 | bgr888 | xrgb8888 | xbgr8888 | rgbx8888 | bgrx8888
  | argb8888 | abgr8888 | rgba8888 | bgra8888 | uyvy | yuyv
  deriving DecidableEq, Repr

/-- The code of a named format (R95). -/
def formatCode (f : PixelFormat) : Word :=
  match f with
  | .rgb565 => 0x36314752#32
  | .bgr565 => 0x36314742#32
  | .rgb888 => 0x34324752#32
  | .bgr888 => 0x34324742#32
  | .xrgb8888 => 0x34325258#32
  | .xbgr8888 => 0x34324258#32
  | .rgbx8888 => 0x34325852#32
  | .bgrx8888 => 0x34325842#32
  | .argb8888 => 0x34325241#32
  | .abgr8888 => 0x34324241#32
  | .rgba8888 => 0x34324152#32
  | .bgra8888 => 0x34324142#32
  | .uyvy => 0x59565955#32
  | .yuyv => 0x56595559#32

/-- The row of a named format (R131 to R140). -/
def translateNamed (f : PixelFormat) : Translation :=
  match f with
  | .rgb565 => { hwCode := .rgb565, swap := 0#1, needsColorMatrix := false }
  | .bgr565 => { hwCode := .rgb565, swap := 1#1, needsColorMatrix := false }
  | .rgb888 => { hwCode := .rgb888, swap := 0#1, needsColorMatrix := false }
  | .bgr888 => { hwCode := .rgb888, swap := 1#1, needsColorMatrix := false }
  | .rgbx8888 => { hwCode := .argb8888, swap := 0#1, needsColorMatrix := false }
  | .rgba8888 => { hwCode := .argb8888, swap := 0#1, needsColorMatrix := false }
  | .bgrx8888 => { hwCode := .argb8888, swap := 1#1, needsColorMatrix := false }
  | .bgra8888 => { hwCode := .argb8888, swap := 1#1, needsColorMatrix := false }
  | .xrgb8888 => { hwCode := .rgba8888, swap := 0#1, needsColorMatrix := false }
  | .argb8888 => { hwCode := .rgba8888, swap := 0#1, needsColorMatrix := false }
  | .xbgr8888 => { hwCode := .rgba8888, swap := 1#1, needsColorMatrix := false }
  | .abgr8888 => { hwCode := .rgba8888, swap := 1#1, needsColorMatrix := false }
  | .uyvy => { hwCode := .uyvy, swap := 0#1, needsColorMatrix := true }
  | .yuyv => { hwCode := .yuyv, swap := 0#1, needsColorMatrix := true }

/-- The row of every format not named (R141). -/
def translateDefault : Translation := { hwCode := .rgb565, swap := 0#1, needsColorMatrix := false }

/-- The fourteen named formats, in the order of R130's rows. -/
def namedFormats : List PixelFormat :=
  [.rgb565, .bgr565, .rgb888, .bgr888, .rgbx8888, .rgba8888, .bgrx8888, .bgra8888, .xrgb8888, .argb8888,
   .xbgr8888, .abgr8888, .uyvy, .yuyv]

/-- The named format of a code, if it is one's. -/
def formatOfCode (w : Word) : Option PixelFormat := namedFormats.find? fun f => formatCode f == w

/-- `translate` (R130): total on every 32-bit value. -/
def translateFormat (format : Word) : Translation :=
  match formatOfCode format with
  | some f => translateNamed f
  | none => translateDefault

end Sys2Proof.Machine
end

