-- ==== Sys2Proof/WellFormed.lean ====
section
/-! DEFINITION. When an instruction is well formed. Every operand value of every row is admitted (an operand the spec
refuses at run time, such as `use_batch = 2`, is an operand the operation itself refuses). The one constraint is on
`illegal d`: no other row matches its descriptor at the offsets in force (R97: "match last"), and its operand words are
as many as its class has (R80, R98). -/

namespace Sys2Proof

/-- The ten offsets of R21. -/
def registerOffsets (o : Offsets) : List Offset :=
  [o.intEnable, o.intStatus, o.globalCon, o.sizeCon0, o.sizeCon1, o.memCon, o.memSrcPitch, o.memGmcSetting0, o.fifoCon,
   o.memStartAddr]

/-- The operation numbers of R83. -/
def operationNumbers : List Offset :=
  [0x001#12, 0x002#12, 0x003#12, 0x004#12, 0x005#12, 0x006#12, 0x007#12, 0x008#12, 0x009#12, 0x00A#12, 0x00B#12,
   0x00C#12, 0x00D#12, 0x00E#12, 0x010#12, 0x011#12]

/-- The event numbers of R84. -/
def eventNumbers : List Offset := [0x001#12, 0x002#12, 0x003#12]

/-- Whether some row but ILLEGAL matches a descriptor (R81 to R84). -/
def legalDescriptor (o : Offsets) (d : Half) : Bool :=
  match (d.extractLsb' 12 4).toNat with
  | 0x1 => (registerOffsets o).contains (d.extractLsb' 0 12)
  | 0x2 => (registerOffsets o).contains (d.extractLsb' 0 12)
  | 0x3 => (registerOffsets o).contains (d.extractLsb' 0 12)
  | 0x4 => (registerOffsets o).contains (d.extractLsb' 0 12)
  | 0x5 => (registerOffsets o).contains (d.extractLsb' 0 12)
  | 0x8 => operationNumbers.contains (d.extractLsb' 0 12)
  | 0x9 => eventNumbers.contains (d.extractLsb' 0 12)
  | _ => false

/-- How many operand words follow an illegal descriptor. By class: one after WR and BWR, two after WRM and BWRM, none
after RD and an undefined operation (R80, R98). None after an illegal class and an undefined event number: DESIGN
CHOICE, the spec gives no count there (log entry 22). -/
def illegalWords (d : Half) : Nat :=
  match (d.extractLsb' 12 4).toNat with
  | 0x2 => 1
  | 0x3 => 2
  | 0x4 => 1
  | 0x5 => 2
  | _ => 0

/-- `illegal d` holds a descriptor that is no row's, with its operand words; every other instruction is well formed at
every operand. -/
def Instr.wellFormed (o : Offsets) (i : Instr) : Bool :=
  match i with
  | .rdIntEnable => true
  | .rdIntStatus => true
  | .rdGlobalCon => true
  | .rdSizeCon0 => true
  | .rdSizeCon1 => true
  | .rdMemCon => true
  | .rdMemSrcPitch => true
  | .rdMemGmcSetting0 => true
  | .rdFifoCon => true
  | .rdMemStartAddr => true
  | .wrIntEnable _ => true
  | .wrIntStatus _ => true
  | .wrGlobalCon _ => true
  | .wrSizeCon0 _ => true
  | .wrSizeCon1 _ => true
  | .wrMemCon _ => true
  | .wrMemSrcPitch _ => true
  | .wrMemGmcSetting0 _ => true
  | .wrFifoCon _ => true
  | .wrMemStartAddr _ => true
  | .wrmIntEnable _ _ => true
  | .wrmIntStatus _ _ => true
  | .wrmGlobalCon _ _ => true
  | .wrmSizeCon0 _ _ => true
  | .wrmSizeCon1 _ _ => true
  | .wrmMemCon _ _ => true
  | .wrmMemSrcPitch _ _ => true
  | .wrmMemGmcSetting0 _ _ => true
  | .wrmFifoCon _ _ => true
  | .wrmMemStartAddr _ _ => true
  | .bwrIntEnable _ => true
  | .bwrIntStatus _ => true
  | .bwrGlobalCon _ => true
  | .bwrSizeCon0 _ => true
  | .bwrSizeCon1 _ => true
  | .bwrMemCon _ => true
  | .bwrMemSrcPitch _ => true
  | .bwrMemGmcSetting0 _ => true
  | .bwrFifoCon _ => true
  | .bwrMemStartAddr _ => true
  | .bwrmIntEnable _ _ => true
  | .bwrmIntStatus _ _ => true
  | .bwrmGlobalCon _ _ => true
  | .bwrmSizeCon0 _ _ => true
  | .bwrmSizeCon1 _ _ => true
  | .bwrmMemCon _ _ => true
  | .bwrmMemSrcPitch _ _ => true
  | .bwrmMemGmcSetting0 _ _ => true
  | .bwrmFifoCon _ _ => true
  | .bwrmMemStartAddr _ _ => true
  | .opConfigureGeometry _ _ _ _ _ => true
  | .opStart => true
  | .opStop => true
  | .opEnableVblank => true
  | .opDisableVblank => true
  | .opRegisterCallback _ _ => true
  | .opClearCallback => true
  | .opConfigureLayer _ _ _ _ _ => true
  | .opClockEnable => true
  | .opClockDisable => true
  | .opQuerySupportedFormats => true
  | .opTranslate _ => true
  | .opComputeFifoParams _ => true
  | .opResolveFifoCapacity => true
  | .opBatchBegin => true
  | .opBatchSubmit => true
  | .evEngineEvent _ => true
  | .evIrqHandler => true
  | .evBatchExecute => true
  | .illegal d => !legalDescriptor o d.descriptor && d.words.length == illegalWords d.descriptor

end Sys2Proof
end

