-- ==== Sys2Proof/Decode.lean ====
section
/-! DEFINITION. The decoder, total on every list of bytes, and the encoder (R80 to R84, R97, R98). An item is a
descriptor of 16 bits followed by its operand words of 32 bits. Each is laid out low byte first, so that bit 0 of the
table's numbering is bit 0 of the first byte (log entry 5). -/

namespace Sys2Proof

/-- The offset of a register: `P_OFF_*` (R6, R21). -/
def regOffset (o : Offsets) (r : Reg) : Offset :=
  match r with
  | .intEnable => o.intEnable
  | .intStatus => o.intStatus
  | .globalCon => o.globalCon
  | .sizeCon0 => o.sizeCon0
  | .sizeCon1 => o.sizeCon1
  | .memCon => o.memCon
  | .memSrcPitch => o.memSrcPitch
  | .memGmcSetting0 => o.memGmcSetting0
  | .fifoCon => o.fifoCon
  | .memStartAddr => o.memStartAddr

/-- The register at an offset, the first of R21's order; none where no register is (R63, R82). -/
def regOfOffset (o : Offsets) (off : Offset) : Option Reg :=
  if off = o.intEnable then some .intEnable
  else if off = o.intStatus then some .intStatus
  else if off = o.globalCon then some .globalCon
  else if off = o.sizeCon0 then some .sizeCon0
  else if off = o.sizeCon1 then some .sizeCon1
  else if off = o.memCon then some .memCon
  else if off = o.memSrcPitch then some .memSrcPitch
  else if off = o.memGmcSetting0 then some .memGmcSetting0
  else if off = o.fifoCon then some .fifoCon
  else if off = o.memStartAddr then some .memStartAddr
  else none

/-- The RD row of a register (R81). -/
def rdInstr (r : Reg) : Instr :=
  match r with
  | .intEnable => .rdIntEnable
  | .intStatus => .rdIntStatus
  | .globalCon => .rdGlobalCon
  | .sizeCon0 => .rdSizeCon0
  | .sizeCon1 => .rdSizeCon1
  | .memCon => .rdMemCon
  | .memSrcPitch => .rdMemSrcPitch
  | .memGmcSetting0 => .rdMemGmcSetting0
  | .fifoCon => .rdFifoCon
  | .memStartAddr => .rdMemStartAddr

/-- The WR row of a register (R81). -/
def wrInstr (r : Reg) (v : Word) : Instr :=
  match r with
  | .intEnable => .wrIntEnable v
  | .intStatus => .wrIntStatus v
  | .globalCon => .wrGlobalCon v
  | .sizeCon0 => .wrSizeCon0 v
  | .sizeCon1 => .wrSizeCon1 v
  | .memCon => .wrMemCon v
  | .memSrcPitch => .wrMemSrcPitch v
  | .memGmcSetting0 => .wrMemGmcSetting0 v
  | .fifoCon => .wrFifoCon v
  | .memStartAddr => .wrMemStartAddr v

/-- The WRM row of a register (R81). -/
def wrmInstr (r : Reg) (v m : Word) : Instr :=
  match r with
  | .intEnable => .wrmIntEnable v m
  | .intStatus => .wrmIntStatus v m
  | .globalCon => .wrmGlobalCon v m
  | .sizeCon0 => .wrmSizeCon0 v m
  | .sizeCon1 => .wrmSizeCon1 v m
  | .memCon => .wrmMemCon v m
  | .memSrcPitch => .wrmMemSrcPitch v m
  | .memGmcSetting0 => .wrmMemGmcSetting0 v m
  | .fifoCon => .wrmFifoCon v m
  | .memStartAddr => .wrmMemStartAddr v m

/-- The BWR row of a register (R81). -/
def bwrInstr (r : Reg) (v : Word) : Instr :=
  match r with
  | .intEnable => .bwrIntEnable v
  | .intStatus => .bwrIntStatus v
  | .globalCon => .bwrGlobalCon v
  | .sizeCon0 => .bwrSizeCon0 v
  | .sizeCon1 => .bwrSizeCon1 v
  | .memCon => .bwrMemCon v
  | .memSrcPitch => .bwrMemSrcPitch v
  | .memGmcSetting0 => .bwrMemGmcSetting0 v
  | .fifoCon => .bwrFifoCon v
  | .memStartAddr => .bwrMemStartAddr v

/-- The BWRM row of a register (R81). -/
def bwrmInstr (r : Reg) (v m : Word) : Instr :=
  match r with
  | .intEnable => .bwrmIntEnable v m
  | .intStatus => .bwrmIntStatus v m
  | .globalCon => .bwrmGlobalCon v m
  | .sizeCon0 => .bwrmSizeCon0 v m
  | .sizeCon1 => .bwrmSizeCon1 v m
  | .memCon => .bwrmMemCon v m
  | .memSrcPitch => .bwrmMemSrcPitch v m
  | .memGmcSetting0 => .bwrmMemGmcSetting0 v m
  | .fifoCon => .bwrmFifoCon v m
  | .memStartAddr => .bwrmMemStartAddr v m

/-- Why a list of bytes is no item. -/
inductive DecodeError where
  /-- Fewer bytes than the descriptor and its operand words take (R98). -/
  | truncated
  /-- `EV engine_event` with a one among bits 31:6 of its operand word, which R98 says are zero. -/
  | reservedEventBits
  deriving DecidableEq, Repr

/-- What a list of bytes begins with: an item and the bytes after it, or no item. -/
inductive Decoded where
  | item (i : Instr) (rest : List Byte)
  | rejected (why : DecodeError)
  deriving DecidableEq, Repr

/-- A word of four bytes, the low byte first. -/
def wordOfBytes (b0 b1 b2 b3 : Byte) : Word :=
  b0.setWidth 32 ||| (b1.setWidth 32 <<< 8) ||| (b2.setWidth 32 <<< 16) ||| (b3.setWidth 32 <<< 24)

/-- A descriptor of two bytes, the low byte first. -/
def halfOfBytes (b0 b1 : Byte) : Half := b0.setWidth 16 ||| (b1.setWidth 16 <<< 8)

/-- The next operand word, low byte first. -/
def takeWord (bs : List Byte) : Option (Word × List Byte) :=
  match bs with
  | b0 :: b1 :: b2 :: b3 :: rest => some (wordOfBytes b0 b1 b2 b3, rest)
  | _ => none

/-- An item with one operand word. -/
def operands1 (bs : List Byte) (f : Word → Instr) : Decoded :=
  match takeWord bs with
  | some (v, rest) => .item (f v) rest
  | none => .rejected .truncated

/-- An item with two operand words. -/
def operands2 (bs : List Byte) (f : Word → Word → Instr) : Decoded :=
  match takeWord bs with
  | some (v, rest) => operands1 rest (f v)
  | none => .rejected .truncated

/-- An item with five operand words. -/
def operands5 (bs : List Byte) (f : Word → Word → Word → Word → Word → Instr) : Decoded :=
  match takeWord bs with
  | some (v, rest) =>
    match takeWord rest with
    | some (w, rest) =>
      match takeWord rest with
      | some (x, rest) => operands2 rest (f v w x)
      | none => .rejected .truncated
    | none => .rejected .truncated
  | none => .rejected .truncated

/-- `EV engine_event`: one operand word, a 6-bit set with bits 31:6 zero (R98, R203). -/
def engineOperand (bs : List Byte) : Decoded :=
  match takeWord bs with
  | some (v, rest) =>
    if v.extractLsb' 6 26 = 0#26 then .item (.evEngineEvent (v.extractLsb' 0 6)) rest
    else .rejected .reservedEventBits
  | none => .rejected .truncated

/-- Class 0x8, the operation numbers of R83. An undefined number is illegal, and has no operand words (R98: "every other
`OP`"). -/
def decodeOp (d : Half) (bs : List Byte) : Decoded :=
  match (d.extractLsb' 0 12).toNat with
  | 0x001 => operands5 bs .opConfigureGeometry
  | 0x002 => .item .opStart bs
  | 0x003 => .item .opStop bs
  | 0x004 => .item .opEnableVblank bs
  | 0x005 => .item .opDisableVblank bs
  | 0x006 => operands2 bs .opRegisterCallback
  | 0x007 => .item .opClearCallback bs
  | 0x008 => operands5 bs .opConfigureLayer
  | 0x009 => .item .opClockEnable bs
  | 0x00A => .item .opClockDisable bs
  | 0x00B => .item .opQuerySupportedFormats bs
  | 0x00C => operands1 bs .opTranslate
  | 0x00D => operands1 bs .opComputeFifoParams
  | 0x00E => .item .opResolveFifoCapacity bs
  | 0x010 => .item .opBatchBegin bs
  | 0x011 => .item .opBatchSubmit bs
  | _ => .item (.illegal ⟨d, []⟩) bs

/-- Class 0x9, the event numbers of R84. An undefined number is illegal; that it has no operand words is a DESIGN CHOICE
(log entry 22). -/
def decodeEv (d : Half) (bs : List Byte) : Decoded :=
  match (d.extractLsb' 0 12).toNat with
  | 0x001 => engineOperand bs
  | 0x002 => .item .evIrqHandler bs
  | 0x003 => .item .evBatchExecute bs
  | _ => .item (.illegal ⟨d, []⟩) bs

/-- Classes 0x1 to 0x5: `legal` reads a register's item, `illegal` what stands for an undefined offset (R82). -/
def decodeAccess (o : Offsets) (d : Half) (legal : Reg → Decoded) (illegal : Decoded) : Decoded :=
  match regOfOffset o (d.extractLsb' 0 12) with
  | some r => legal r
  | none => illegal

/-- The item after descriptor `d` (R80, R81, R97). The operand words of an access are counted by its class, whatever its
offset (R80, R98). That an illegal class has none is a DESIGN CHOICE (log entry 22). -/
def decodeAfter (o : Offsets) (d : Half) (bs : List Byte) : Decoded :=
  match (d.extractLsb' 12 4).toNat with
  | 0x1 => decodeAccess o d (fun r => .item (rdInstr r) bs) (.item (.illegal ⟨d, []⟩) bs)
  | 0x2 => decodeAccess o d (fun r => operands1 bs (wrInstr r)) (operands1 bs fun v => .illegal ⟨d, [v]⟩)
  | 0x3 => decodeAccess o d (fun r => operands2 bs (wrmInstr r)) (operands2 bs fun v m => .illegal ⟨d, [v, m]⟩)
  | 0x4 => decodeAccess o d (fun r => operands1 bs (bwrInstr r)) (operands1 bs fun v => .illegal ⟨d, [v]⟩)
  | 0x5 => decodeAccess o d (fun r => operands2 bs (bwrmInstr r)) (operands2 bs fun v m => .illegal ⟨d, [v, m]⟩)
  | 0x8 => decodeOp d bs
  | 0x9 => decodeEv d bs
  | _ => .item (.illegal ⟨d, []⟩) bs

/-- The item a list of bytes begins with, at the offsets `o`. -/
def decode (o : Offsets) (bs : List Byte) : Decoded :=
  match bs with
  | b0 :: b1 :: rest => decodeAfter o (halfOfBytes b0 b1) rest
  | _ => .rejected .truncated

/-! The encoder. -/

/-- The descriptor of an access: class in bits 15:12, offset in bits 11:0 (R80). -/
def accessDescriptor (o : Offsets) (k : BitVec 4) (r : Reg) : Half :=
  (k.setWidth 16 <<< 12) ||| (regOffset o r).setWidth 16

/-- The descriptor of an instruction (R80 to R84). -/
def Instr.descriptor (o : Offsets) (i : Instr) : Half :=
  match i with
  | .rdIntEnable => accessDescriptor o 0x1#4 .intEnable
  | .rdIntStatus => accessDescriptor o 0x1#4 .intStatus
  | .rdGlobalCon => accessDescriptor o 0x1#4 .globalCon
  | .rdSizeCon0 => accessDescriptor o 0x1#4 .sizeCon0
  | .rdSizeCon1 => accessDescriptor o 0x1#4 .sizeCon1
  | .rdMemCon => accessDescriptor o 0x1#4 .memCon
  | .rdMemSrcPitch => accessDescriptor o 0x1#4 .memSrcPitch
  | .rdMemGmcSetting0 => accessDescriptor o 0x1#4 .memGmcSetting0
  | .rdFifoCon => accessDescriptor o 0x1#4 .fifoCon
  | .rdMemStartAddr => accessDescriptor o 0x1#4 .memStartAddr
  | .wrIntEnable _ => accessDescriptor o 0x2#4 .intEnable
  | .wrIntStatus _ => accessDescriptor o 0x2#4 .intStatus
  | .wrGlobalCon _ => accessDescriptor o 0x2#4 .globalCon
  | .wrSizeCon0 _ => accessDescriptor o 0x2#4 .sizeCon0
  | .wrSizeCon1 _ => accessDescriptor o 0x2#4 .sizeCon1
  | .wrMemCon _ => accessDescriptor o 0x2#4 .memCon
  | .wrMemSrcPitch _ => accessDescriptor o 0x2#4 .memSrcPitch
  | .wrMemGmcSetting0 _ => accessDescriptor o 0x2#4 .memGmcSetting0
  | .wrFifoCon _ => accessDescriptor o 0x2#4 .fifoCon
  | .wrMemStartAddr _ => accessDescriptor o 0x2#4 .memStartAddr
  | .wrmIntEnable _ _ => accessDescriptor o 0x3#4 .intEnable
  | .wrmIntStatus _ _ => accessDescriptor o 0x3#4 .intStatus
  | .wrmGlobalCon _ _ => accessDescriptor o 0x3#4 .globalCon
  | .wrmSizeCon0 _ _ => accessDescriptor o 0x3#4 .sizeCon0
  | .wrmSizeCon1 _ _ => accessDescriptor o 0x3#4 .sizeCon1
  | .wrmMemCon _ _ => accessDescriptor o 0x3#4 .memCon
  | .wrmMemSrcPitch _ _ => accessDescriptor o 0x3#4 .memSrcPitch
  | .wrmMemGmcSetting0 _ _ => accessDescriptor o 0x3#4 .memGmcSetting0
  | .wrmFifoCon _ _ => accessDescriptor o 0x3#4 .fifoCon
  | .wrmMemStartAddr _ _ => accessDescriptor o 0x3#4 .memStartAddr
  | .bwrIntEnable _ => accessDescriptor o 0x4#4 .intEnable
  | .bwrIntStatus _ => accessDescriptor o 0x4#4 .intStatus
  | .bwrGlobalCon _ => accessDescriptor o 0x4#4 .globalCon
  | .bwrSizeCon0 _ => accessDescriptor o 0x4#4 .sizeCon0
  | .bwrSizeCon1 _ => accessDescriptor o 0x4#4 .sizeCon1
  | .bwrMemCon _ => accessDescriptor o 0x4#4 .memCon
  | .bwrMemSrcPitch _ => accessDescriptor o 0x4#4 .memSrcPitch
  | .bwrMemGmcSetting0 _ => accessDescriptor o 0x4#4 .memGmcSetting0
  | .bwrFifoCon _ => accessDescriptor o 0x4#4 .fifoCon
  | .bwrMemStartAddr _ => accessDescriptor o 0x4#4 .memStartAddr
  | .bwrmIntEnable _ _ => accessDescriptor o 0x5#4 .intEnable
  | .bwrmIntStatus _ _ => accessDescriptor o 0x5#4 .intStatus
  | .bwrmGlobalCon _ _ => accessDescriptor o 0x5#4 .globalCon
  | .bwrmSizeCon0 _ _ => accessDescriptor o 0x5#4 .sizeCon0
  | .bwrmSizeCon1 _ _ => accessDescriptor o 0x5#4 .sizeCon1
  | .bwrmMemCon _ _ => accessDescriptor o 0x5#4 .memCon
  | .bwrmMemSrcPitch _ _ => accessDescriptor o 0x5#4 .memSrcPitch
  | .bwrmMemGmcSetting0 _ _ => accessDescriptor o 0x5#4 .memGmcSetting0
  | .bwrmFifoCon _ _ => accessDescriptor o 0x5#4 .fifoCon
  | .bwrmMemStartAddr _ _ => accessDescriptor o 0x5#4 .memStartAddr
  | .opConfigureGeometry _ _ _ _ _ => 0x8001#16
  | .opStart => 0x8002#16
  | .opStop => 0x8003#16
  | .opEnableVblank => 0x8004#16
  | .opDisableVblank => 0x8005#16
  | .opRegisterCallback _ _ => 0x8006#16
  | .opClearCallback => 0x8007#16
  | .opConfigureLayer _ _ _ _ _ => 0x8008#16
  | .opClockEnable => 0x8009#16
  | .opClockDisable => 0x800A#16
  | .opQuerySupportedFormats => 0x800B#16
  | .opTranslate _ => 0x800C#16
  | .opComputeFifoParams _ => 0x800D#16
  | .opResolveFifoCapacity => 0x800E#16
  | .opBatchBegin => 0x8010#16
  | .opBatchSubmit => 0x8011#16
  | .evEngineEvent _ => 0x9001#16
  | .evIrqHandler => 0x9002#16
  | .evBatchExecute => 0x9003#16
  | .illegal d => d.descriptor

/-- The operand words of an instruction, in the order of R98. -/
def Instr.operandWords (i : Instr) : List Word :=
  match i with
  | .rdIntEnable => []
  | .rdIntStatus => []
  | .rdGlobalCon => []
  | .rdSizeCon0 => []
  | .rdSizeCon1 => []
  | .rdMemCon => []
  | .rdMemSrcPitch => []
  | .rdMemGmcSetting0 => []
  | .rdFifoCon => []
  | .rdMemStartAddr => []
  | .wrIntEnable v => [v]
  | .wrIntStatus v => [v]
  | .wrGlobalCon v => [v]
  | .wrSizeCon0 v => [v]
  | .wrSizeCon1 v => [v]
  | .wrMemCon v => [v]
  | .wrMemSrcPitch v => [v]
  | .wrMemGmcSetting0 v => [v]
  | .wrFifoCon v => [v]
  | .wrMemStartAddr v => [v]
  | .wrmIntEnable v m => [v, m]
  | .wrmIntStatus v m => [v, m]
  | .wrmGlobalCon v m => [v, m]
  | .wrmSizeCon0 v m => [v, m]
  | .wrmSizeCon1 v m => [v, m]
  | .wrmMemCon v m => [v, m]
  | .wrmMemSrcPitch v m => [v, m]
  | .wrmMemGmcSetting0 v m => [v, m]
  | .wrmFifoCon v m => [v, m]
  | .wrmMemStartAddr v m => [v, m]
  | .bwrIntEnable v => [v]
  | .bwrIntStatus v => [v]
  | .bwrGlobalCon v => [v]
  | .bwrSizeCon0 v => [v]
  | .bwrSizeCon1 v => [v]
  | .bwrMemCon v => [v]
  | .bwrMemSrcPitch v => [v]
  | .bwrMemGmcSetting0 v => [v]
  | .bwrFifoCon v => [v]
  | .bwrMemStartAddr v => [v]
  | .bwrmIntEnable v m => [v, m]
  | .bwrmIntStatus v m => [v, m]
  | .bwrmGlobalCon v m => [v, m]
  | .bwrmSizeCon0 v m => [v, m]
  | .bwrmSizeCon1 v m => [v, m]
  | .bwrmMemCon v m => [v, m]
  | .bwrmMemSrcPitch v m => [v, m]
  | .bwrmMemGmcSetting0 v m => [v, m]
  | .bwrmFifoCon v m => [v, m]
  | .bwrmMemStartAddr v m => [v, m]
  | .opConfigureGeometry w h r b u => [w, h, r, b, u]
  | .opStart => []
  | .opStop => []
  | .opEnableVblank => []
  | .opDisableVblank => []
  | .opRegisterCallback f c => [f, c]
  | .opClearCallback => []
  | .opConfigureLayer i a p f u => [i, a, p, f, u]
  | .opClockEnable => []
  | .opClockDisable => []
  | .opQuerySupportedFormats => []
  | .opTranslate f => [f]
  | .opComputeFifoParams c => [c]
  | .opResolveFifoCapacity => []
  | .opBatchBegin => []
  | .opBatchSubmit => []
  | .evEngineEvent bits => [bits.setWidth 32]
  | .evIrqHandler => []
  | .evBatchExecute => []
  | .illegal d => d.words

/-- The two bytes of a descriptor, low byte first. -/
def halfBytes (d : Half) : List Byte := [d.extractLsb' 0 8, d.extractLsb' 8 8]

/-- The four bytes of an operand word, low byte first. -/
def wordBytes (w : Word) : List Byte :=
  [w.extractLsb' 0 8, w.extractLsb' 8 8, w.extractLsb' 16 8, w.extractLsb' 24 8]

/-- The bytes of an instruction: its descriptor, then its operand words. -/
def encode (o : Offsets) (i : Instr) : List Byte := halfBytes (i.descriptor o) ++ i.operandWords.flatMap wordBytes

/-! The words of the opcode table. -/

/-- The longest instruction, in bytes: a descriptor and five operand words (R98). -/
def maxItemBytes : Nat := 22

/-- The low `n` bytes of `w`, least significant first. -/
def bytesOf (n w : Nat) : List Byte :=
  match n with
  | 0 => []
  | n + 1 => BitVec.ofNat 8 w :: bytesOf n (w / 256)

/-- The bytes of an instruction whose table bits are `w`: bits at and above `nbits` are zero. -/
def tableBytes (nbits w : Nat) : List Byte := bytesOf maxItemBytes (w % 2 ^ nbits)

/-- The bytes of the first item of a list, without what stands after it; all of it where it begins with no item. -/
def itemBytes (o : Offsets) (bs : List Byte) : List Byte :=
  match decode o bs with
  | .item _ rest => bs.take (bs.length - rest.length)
  | .rejected _ => bs

/-- The instruction the decoder reads from the table word `w`, at the default offsets, which are the table's. -/
def decodeTableWord (nbits w : Nat) : Option Instr :=
  match decode Config.offsets (tableBytes nbits w) with
  | .item i _ => some i
  | .rejected _ => none

end Sys2Proof
end

