-- ==== Sys2Proof/Machine/Operands.lean ====
section
/-! DEFINITION. Operand forms: the word of a register and the fields a word writes (R22 to R33), the merge of a masked
write (R69, R72), and the values the controller writes into register words (R85 to R94). -/

namespace Sys2Proof.Machine

/-! ## Registers as words -/

/-- A field whose low bit stands at bit `lo` of a word. -/
def placed {k : Nat} (x : BitVec k) (lo : Nat) : Word := x.setWidth 32 <<< lo

/-- The named fields of a register at their positions; every other bit 0 (R22 to R32). -/
def regWord (r : Reg) (g : Regs) : Word :=
  match r with
  | .intEnable => placed g.intEnable 0
  | .intStatus => placed g.intStatus 0
  | .globalCon => placed g.engineEn 0 ||| placed g.modeMemory 1
  | .sizeCon0 => placed g.width 0 ||| placed g.matrixEnable 17 ||| placed g.mtxSel 20
  | .sizeCon1 => placed g.height 0
  | .memCon => placed g.inputFormat 4 ||| placed g.inputSwap 8
  | .memSrcPitch => placed g.pitch 0
  | .memGmcSetting0 => g.gmc
  | .fifoCon => placed g.fifoThreshold 0 ||| placed g.fifoPseudoSize 16 ||| placed g.fifoUnderflowEn 31
  | .memStartAddr => g.startAddr

/-- The bit positions of a register outside every named field (R22 to R33). -/
def unnamedMask (r : Reg) : Word :=
  match r with
  | .intEnable => 0xFFFFFFC0#32
  | .intStatus => 0xFFFFFFC0#32
  | .globalCon => 0xFFFFFFFC#32
  | .sizeCon0 => 0xFF0DF000#32
  | .sizeCon1 => 0xFFF00000#32
  | .memCon => 0xFFFFFE0F#32
  | .memSrcPitch => 0xFFFF0000#32
  | .memGmcSetting0 => 0#32
  | .fifoCon => 0#32
  | .memStartAddr => 0#32

/-- What a bus read of a register returns (R33, R110): the named fields, and the `n`-th free draw in every position
outside them. -/
def readValue (r : Reg) (n : Nat) (g : Regs) : Word :=
  if unnamedMask r = 0#32 then regWord r g else regWord r g ||| (Config.freeWord n &&& unnamedMask r)

/-- A write of `v` stores each named field of the register; the other bits of `v` are dropped (R33, R111). -/
def storeFields (r : Reg) (v : Word) (g : Regs) : Regs :=
  match r with
  | .intEnable => { g with intEnable := v.extractLsb' 0 6 }
  | .intStatus => { g with intStatus := v.extractLsb' 0 6 }
  | .globalCon => { g with engineEn := v.extractLsb' 0 1, modeMemory := v.extractLsb' 1 1 }
  | .sizeCon0 =>
    { g with width := v.extractLsb' 0 12, matrixEnable := v.extractLsb' 17 1, mtxSel := v.extractLsb' 20 4 }
  | .sizeCon1 => { g with height := v.extractLsb' 0 20 }
  | .memCon => { g with inputFormat := v.extractLsb' 4 4, inputSwap := v.extractLsb' 8 1 }
  | .memSrcPitch => { g with pitch := v.extractLsb' 0 16 }
  | .memGmcSetting0 => { g with gmc := v }
  | .fifoCon =>
    { g with
      fifoThreshold := v.extractLsb' 0 16, fifoPseudoSize := v.extractLsb' 16 15,
      fifoUnderflowEn := v.extractLsb' 31 1 }
  | .memStartAddr => { g with startAddr := v }

/-- `(old & ~m) | (v & m)` (R69, R72, R113). -/
def merge (old v m : Word) : Word := (old &&& ~~~m) ||| (v &&& m)

/-- The bus address `P_BASE + offset` of a register (R21). The spec gives no width of a bus address: 32 bits, the sum
wrapping modulo 2^32, is a DESIGN CHOICE (log entry 21). -/
def busAddress (p : Params) (r : Reg) : Word := p.base + (regOffset p.offsets r).setWidth 32

/-! ## Words the controller writes -/

/-- The mask of the width (R85). -/
def widthMask : Word := 0x00000FFF#32

/-- The mask of the height (R86). -/
def heightMask : Word := 0x000FFFFF#32

/-- The numeric value of an internal format code (R88). -/
def hwCodeValue (p : HwCodeValues) (c : HwCode) : BitVec 4 :=
  match c with
  | .rgb565 => p.rgb565
  | .rgb888 => p.rgb888
  | .rgba8888 => p.rgba8888
  | .argb8888 => p.argb8888
  | .uyvy => p.uyvy
  | .yuyv => p.yuyv

/-- The memory-format word `(hw_code << 4) | (swap << 8)` (R87). -/
def memConWord (p : HwCodeValues) (t : Translation) : Word :=
  placed (hwCodeValue p t.hwCode) 4 ||| placed t.swap 8

/-- `MATRIX_ENABLE` in its place, also its mask (R89). -/
def matrixEnableBit : Word := 0x00020000#32

/-- The mask of `MATRIX_INT_MTX_SEL` (R89). -/
def mtxSelMask : Word := 0x00F00000#32

/-- `P_BT601_SEL << 20` (R89). -/
def bt601Word (p : Params) : Word := placed p.bt601Sel 20

/-- `pitch & 0x0000FFFF` (R91). -/
def pitchWord (pitch : Word) : Word := pitch &&& 0x0000FFFF#32

/-- `ENGINE_EN` in its place (R93). -/
def engineEnBit : Word := 0x1#32

/-- `MODE_MEMORY` in its place (R93). -/
def modeMemoryBit : Word := 0x2#32

/-- FRAME_END in its place (R94). -/
def frameEndBit : Word := 0x4#32

end Sys2Proof.Machine
end

