-- ==== Sys2Proof/Machine/Ops.lean ====
section
/-! DEFINITION. The shared operations: recording events, faults and refusals (R43, R212, R213); one indivisible action
of a context (R64, R110 to R117, R177 to R184); the plan of actions an operation expands to (R100, R171 to R179); batch
execution (R116, R185); the interrupt handler's delivery and steps (R204, R206); what other agents do at an
interleaving point (R68); and running a context until its operation ends. -/

namespace Sys2Proof.Machine

/-! ## Events, faults, refusals, contexts -/

/-- Appends an event to the history (R11, R43). -/
def emit (e : Event) (s : State) : State := { s with history := s.history ++ [e] }

/-- The fault set with one fault more (R42). -/
def faultsWith (f : ModelFault) (fs : List ModelFault) : List ModelFault := if f ∈ fs then fs else fs ++ [f]

/-- Records a model fault in the set `faults` (R42, R212). -/
def recordFault (f : ModelFault) (s : State) : State := { s with faults := faultsWith f s.faults }

/-- Sets the refusal mark (R42, R213). -/
def markRefused (s : State) : State := { s with refused := true }

/-- The context `c`. -/
def thread (c : Context) (s : State) : Thread :=
  match c with
  | .caller => s.caller
  | .irq => s.irq

/-- Replaces the context `c`. -/
def setThread (c : Context) (t : Thread) (s : State) : State :=
  match c with
  | .caller => { s with caller := t }
  | .irq => { s with irq := t }

/-- The operation of context `c` ends, having returned `ret`. -/
def endOperation (c : Context) (ret : Return) (s : State) : State :=
  setThread c { thread c s with todo := [], ret := ret } s

/-- A refusal sets the mark and ends the operation (R213). -/
def refuseOperation (c : Context) (why : SpecRefusal) (s : State) : State :=
  endOperation c (.refused why) (markRefused s)

/-- A model fault is recorded and ends the operation at the faulting access (R212). -/
def faultOperation (c : Context) (f : ModelFault) (s : State) : State :=
  endOperation c (.faulted f) (recordFault f s)

/-! ## One action -/

/-- The result of one action or of one batch entry applied: it is done, with a new state and a value; or it is
refused (R213) or faults (R212), with no bus transaction and nothing changed. -/
inductive Progress where
  | done (s : State) (ret : Return)
  | refuse (why : SpecRefusal)
  | fault (f : ModelFault)
  deriving DecidableEq, Repr

/-- `check_immediate` (R117): the offset first, then the clock. -/
def checkImmediate (off : Offset) (s : State) : Option ModelFault :=
  match regOfOffset s.params.offsets off with
  | none => some (.undefinedRegister off)
  | some _ => if s.clkCount = 0 then some (.unclockedAccess off) else none

/-- Draws the clock subsystem's answer (R180): the next one placed in State, or a free value (log entry 4). -/
def drawClockAnswer (s : State) : Bool × State :=
  match s.clockAnswers with
  | ok :: rest => (ok, { s with clockAnswers := rest })
  | [] => (Config.freeAnswer s.draws, { s with draws := s.draws + 1 })

/-- The state after a bus read of `r` (R110): one draw taken, an `Access` event appended. -/
def afterRead (c : Context) (r : Reg) (s : State) : State :=
  emit (.access c.agent .rd r none none (some (readValue r s.draws s.regs))) { s with draws := s.draws + 1 }

/-- `RD` (R110). -/
def actRead (c : Context) (r : Reg) (s : State) : Progress :=
  match checkImmediate (regOffset s.params.offsets r) s with
  | some f => .fault f
  | none => .done (afterRead c r s) (.word (readValue r s.draws s.regs))

/-- `WR` (R111, R112). -/
def actWrite (c : Context) (r : Reg) (v : Word) (s : State) : Progress :=
  match checkImmediate (regOffset s.params.offsets r) s with
  | some f => .fault f
  | none =>
    if r = .intStatus then
      if v = 0#32 then
        .done (emit (.access c.agent .wr r (some v) none none) { s with regs := clearStatus s.regs }) .ok
      else .refuse .nonzeroStatusWrite
    else .done (emit (.access c.agent .wr r (some v) none none) { s with regs := storeFields r v s.regs }) .ok

/-- The first transaction of `WRM` (R113). The context keeps the named fields it read; the drawn bits of the word reach
no named field (R113's corner case, log entry 7). -/
def actMaskedRead (c : Context) (r : Reg) (s : State) : Progress :=
  if r = .intStatus then .refuse .maskedStatusWrite
  else
    match checkImmediate (regOffset s.params.offsets r) s with
    | some f => .fault f
    | none =>
      .done (setThread c { thread c s with old := regWord r s.regs } (afterRead c r s))
        (.word (readValue r s.draws s.regs))

/-- The second transaction of `WRM` (R113). -/
def actMaskedWrite (c : Context) (r : Reg) (v m : Word) (s : State) : Progress :=
  if r = .intStatus then .refuse .maskedStatusWrite
  else
    match checkImmediate (regOffset s.params.offsets r) s with
    | some f => .fault f
    | none =>
      .done
        (emit (.access c.agent .wrm r (some v) (some m) none)
          { s with regs := storeFields r (merge (thread c s).old v m) s.regs })
        .ok

/-- Whether an entry may be recorded (R66, R114, R115): of `INT_STATUS`, only the plain write of 0. -/
def entryRefusal (e : BatchEntry) : Option SpecRefusal :=
  match e with
  | .write r v => if r = .intStatus ∧ v ≠ 0#32 then some .nonzeroStatusWrite else none
  | .writeMasked r _ _ => if r = .intStatus then some .maskedStatusWrite else none

/-- `BWR` and `BWRM` (R114, R115): append an entry to the open batch. -/
def actRecord (e : BatchEntry) (s : State) : Progress :=
  match entryRefusal e with
  | some why => .refuse why
  | none =>
    match s.batch with
    | .recording es => .done { s with batch := .recording (es ++ [e]) } .ok
    | .noBatch => .refuse .noOpenBatch
    | .submitted _ => .refuse .appendAfterSubmit

/-- The last step of `configure_geometry` (R172): resolve the capacity, then put the FIFO-control word. -/
def actPutFifo (c : Context) (useBatch : Bool) (s : State) : Progress :=
  match resolveCapacity s.fifoOverride s.variant.fifoCapacity with
  | none => .refuse .capacityOutOfRange
  | some cap =>
    if useBatch then actRecord (.write .fifoCon (fifoWord cap)) s else actWrite c .fifoCon (fifoWord cap) s

/-- `clock_enable` (R180). -/
def actClockEnable (c : Context) (s : State) : Progress :=
  match c with
  | .irq => .refuse .clockEnableInIrq
  | .caller =>
    let (ok, s') := drawClockAnswer s
    .done
      (if ok then emit (.clockResult none) { s' with clkCount := s'.clkCount + 1 }
        else emit (.clockResult (some .clockAcquisitionFailure)) s')
      (if ok then .ok else .error .clockAcquisitionFailure)

/-- `clock_disable` (R181). -/
def actClockDisable (s : State) : Progress :=
  if s.clkCount = 0 then .refuse .clockUnderflow else .done { s with clkCount := s.clkCount - 1 } .ok

/-- `batch_begin` (R183). -/
def actBatchBegin (s : State) : Progress :=
  if s.batchCapable = false then .refuse .batchNotCapable
  else if s.batch ≠ .noBatch then .refuse .overlappingBatch
  else .done { s with batch := .recording [] } .ok

/-- `batch_submit` (R184). -/
def actBatchSubmit (s : State) : Progress :=
  match s.batch with
  | .recording es => .done { s with batch := .submitted es } .ok
  | .noBatch => .refuse .noOpenBatch
  | .submitted _ => .refuse .noOpenBatch

/-- `resolve_fifo_capacity` (R150). -/
def actResolve (s : State) : Progress :=
  match resolveCapacity s.fifoOverride s.variant.fifoCapacity with
  | none => .refuse .capacityOutOfRange
  | some cap => .done s (.capacity cap)

/-- One indivisible action of context `c`. -/
def act (c : Context) (a : Action) (s : State) : Progress :=
  match a with
  | .rd r => actRead c r s
  | .wr r v => actWrite c r v s
  | .maskedRead r => actMaskedRead c r s
  | .maskedWrite r v m => actMaskedWrite c r v m s
  | .record e => actRecord e s
  | .putFifo useBatch => actPutFifo c useBatch s
  | .setCallback cb => .done { s with callback := cb } .ok
  | .clockEnable => actClockEnable c s
  | .clockDisable => actClockDisable s
  | .queryFormats => .done s (.formats s.variant.supportedFormats)
  | .batchBegin => actBatchBegin s
  | .batchSubmit => actBatchSubmit s
  | .translate format => .done s (.translation (translateFormat format))
  | .computeFifoParams cap => .done s (.fifoParams (pseudoSizeField cap.toNat) (thresholdField cap.toNat))
  | .resolveCapacity => actResolve s

/-- The next action of the operation in progress in context `c`; nothing where none is in progress. -/
def stepThread (c : Context) (s : State) : State :=
  match (thread c s).todo with
  | [] => s
  | a :: rest =>
    match act c a s with
    | .done s' ret => setThread c { thread c s' with todo := rest, ret := ret } s'
    | .refuse why => refuseOperation c why s
    | .fault f => faultOperation c f s

/-! ## The plan of an operation (R100) -/

/-- `check_batch_arg` (R171). -/
def checkBatchArg (useBatch : Word) (s : State) : Option SpecRefusal :=
  if useBatch = 1#32 ∧ s.batchCapable = false then some .batchNotCapable
  else if useBatch = 1#32 then
    match s.batch with
    | .recording _ => none
    | .noBatch => some .noOpenBatch
    | .submitted _ => some .noOpenBatch
  else if useBatch = 0#32 then none
  else some .badOperand

/-- `put` (R171). -/
def put (useBatch : Bool) (r : Reg) (v : Word) : List Action :=
  if useBatch then [.record (.write r v)] else [.wr r v]

/-- `putm` (R171): an immediate masked write is two transactions (R69). -/
def putm (useBatch : Bool) (r : Reg) (v m : Word) : List Action :=
  if useBatch then [.record (.writeMasked r v m)] else [.maskedRead r, .maskedWrite r v m]

/-- The actions of `configure_geometry` (R172). -/
def geometryPlan (useBatch : Bool) (width height : Word) : List Action :=
  putm useBatch .sizeCon0 width widthMask ++ putm useBatch .sizeCon1 height heightMask ++ [.putFifo useBatch]

/-- Step (c) of `configure_layer` (R89, R179). -/
def matrixPlan (useBatch : Bool) (p : Params) (needsColorMatrix : Bool) : List Action :=
  if needsColorMatrix then
    putm useBatch .sizeCon0 matrixEnableBit matrixEnableBit ++ putm useBatch .sizeCon0 (bt601Word p) mtxSelMask
  else putm useBatch .sizeCon0 0#32 matrixEnableBit

/-- The actions of `configure_layer`, steps (b) to (f) (R179). -/
def layerPlan (useBatch : Bool) (p : Params) (address pitch format : Word) : List Action :=
  put useBatch .memCon (memConWord p.hwCodes (translateFormat format))
    ++ matrixPlan useBatch p (translateFormat format).needsColorMatrix
    ++ put useBatch .memStartAddr address
    ++ put useBatch .memSrcPitch (pitchWord pitch)
    ++ put useBatch .memGmcSetting0 p.gmc
    ++ putm useBatch .globalCon modeMemoryBit modeMemoryBit

/-- What an operation expands to, or why it is refused before its first action. -/
inductive Plan where
  | actions (todo : List Action)
  | refuse (why : SpecRefusal)
  deriving DecidableEq, Repr

/-- The plan of a controller operation (R172 to R184). -/
def ctrlPlan (op : CtrlOp) (s : State) : Plan :=
  match op with
  | .configureGeometry width height _ _ useBatch =>
    match checkBatchArg useBatch s with
    | some why => .refuse why
    | none => .actions (geometryPlan (useBatch == 1#32) width height)
  | .start => .actions (putm false .globalCon engineEnBit engineEnBit)
  | .stop => .actions (putm false .globalCon 0#32 engineEnBit)
  | .enableVblank => .actions (putm false .intEnable frameEndBit frameEndBit)
  | .disableVblank => .actions (putm false .intEnable 0#32 frameEndBit)
  | .registerCallback fn ctx => .actions [.setCallback (some { fn := fn, ctx := ctx })]
  | .clearCallback => .actions [.setCallback none]
  | .configureLayer index address pitch format useBatch =>
    if index ≠ 0#32 then .refuse .layerIndexNonzero
    else
      match checkBatchArg useBatch s with
      | some why => .refuse why
      | none => .actions (layerPlan (useBatch == 1#32) s.params address pitch format)
  | .clockEnable => .actions [.clockEnable]
  | .clockDisable => .actions [.clockDisable]
  | .querySupportedFormats => .actions [.queryFormats]
  | .batchBegin => .actions [.batchBegin]
  | .batchSubmit => .actions [.batchSubmit]

/-- The plan of an operation. -/
def plan (op : Operation) (s : State) : Plan :=
  match op with
  | .rd r => .actions [.rd r]
  | .wr r v => .actions [.wr r v]
  | .wrm r v m => .actions [.maskedRead r, .maskedWrite r v m]
  | .bwr r v => .actions [.record (.write r v)]
  | .bwrm r v m => .actions [.record (.writeMasked r v m)]
  | .ctrl op => ctrlPlan op s
  | .translate format => .actions [.translate format]
  | .computeFifoParams cap => .actions [.computeFifoParams cap]
  | .resolveFifoCapacity => .actions [.resolveCapacity]

/-- Context `c` issues an operation: its checks are made, and its actions are still to be taken. -/
def issue (c : Context) (op : Operation) (s : State) : State :=
  match plan op s with
  | .actions todo => setThread c { thread c s with todo := todo, ret := .nothing } s
  | .refuse why => refuseOperation c why s

/-! ## The engine and the coprocessor -/

/-- `engine_event` (R203). -/
def raiseStatus (bits : Sources) (s : State) : State :=
  emit (.engineEvent bits) { s with regs := setStatus bits s.regs }

/-- `apply` (R116), with the refusal of R66 for an entry that no recording admits (log entry 8). -/
def applyEntry (e : BatchEntry) (s : State) : Progress :=
  match e with
  | .write r v =>
    if s.clkCount = 0 then .fault (.unclockedAccess (regOffset s.params.offsets r))
    else
      match entryRefusal e with
      | some why => .refuse why
      | none =>
        if r = .intStatus then .done { s with regs := clearStatus s.regs } .ok
        else .done { s with regs := storeFields r v s.regs } .ok
  | .writeMasked r v m =>
    if s.clkCount = 0 then .fault (.unclockedAccess (regOffset s.params.offsets r))
    else
      match entryRefusal e with
      | some why => .refuse why
      | none => .done { s with regs := storeFields r (merge (regWord r s.regs) v m) s.regs } .ok

/-- Applies entries in list order; false where one stopped the execution, its fault or refusal recorded. -/
def applyEntries (es : List BatchEntry) (s : State) : State × Bool :=
  match es with
  | [] => (s, true)
  | e :: rest =>
    match applyEntry e s with
    | .done s' _ => applyEntries rest s'
    | .refuse _ => (markRefused s, false)
    | .fault f => (recordFault f s, false)

/-- `batch_execute` of the submitted entries, one indivisible step (R71, R185). An execution that stops leaves the batch
submitted (log entry 9). -/
def executeBatch (es : List BatchEntry) (s : State) : State :=
  match applyEntries es s with
  | (s', true) => emit (.batchApplied es) { s' with batch := .noBatch }
  | (s', false) => s'

/-! ## The interrupt handler: delivery and its steps (R204, R206) -/

/-- `P_CALLBACK_BODY(fn, ctx)` (R207). -/
def callbackBody (p : Params) (cb : Callback) : List CtrlOp := (p.bodies.lookup cb).getD []

/-- The platform starts a handler run (R204). This is the block's only control transfer: no state is saved and no mode
changes (R209). -/
def deliver (s : State) : State := { s with phase := .clear, irq := { s.irq with todo := [], ret := .nothing } }

/-- A handler run returns its value to the platform (R206, R208, R209). -/
def handlerReturn (result : HandlerResult) (s : State) : State :=
  emit (.handlerReturn result) { s with phase := .idle, irq := { s.irq with todo := [], ret := .handler result } }

/-- One step of the handler run in progress (R206). A fault ends the run with no return value (R206, R212); a refusal
ends the operation of the body it stands in (R213, log entry 10). -/
def irqStep (s : State) : State :=
  match s.phase with
  | .idle => s
  | .clear =>
    match act .irq (.wr .intStatus 0#32) s with
    | .done s' _ => { s' with phase := .readSlot }
    | .refuse why => { refuseOperation .irq why s with phase := .idle }
    | .fault f => { faultOperation .irq f s with phase := .idle }
  | .readSlot =>
    match s.callback with
    | none => handlerReturn .notHandled s
    | some cb => { s with phase := .invoke cb }
  | .invoke cb => emit (.notify cb.ctx) { s with phase := .body (callbackBody s.params cb) }
  | .body rest =>
    match s.irq.todo with
    | _ :: _ =>
      match (stepThread .irq s).irq.ret with
      | .faulted _ => { stepThread .irq s with phase := .idle }
      | _ => stepThread .irq s
    | [] =>
      match rest with
      | op :: ops => issue .irq (.ctrl op) { s with phase := .body ops }
      | [] => handlerReturn .handled s

/-! ## Interleaving (R68) -/

/-- One step of another agent. `running` is the context whose own operation is being run; a move of that context, or a
move that is not enabled, is no step, and is passed over (log entry 11). -/
def move (running : Option Context) (m : Move) (s : State) : State :=
  match m with
  | .engineEvent bits => if engineMayRaise s then raiseStatus bits s else s
  | .batchExecute =>
    match s.batch with
    | .submitted es => executeBatch es s
    | .noBatch => s
    | .recording _ => s
  | .deliver => if running = some .irq ∨ s.phase ≠ .idle then s else deliver s
  | .irqStep => if running = some .irq then s else irqStep s
  | .issue op => if running = some .caller ∨ s.caller.todo ≠ [] then s else issue .caller op s
  | .callerStep => if running = some .caller then s else stepThread .caller s

/-- Several steps of other agents, in order. -/
def moves (running : Option Context) (ms : List Move) (s : State) : State :=
  match ms with
  | [] => s
  | m :: rest => moves running rest (move running m s)

/-- An interleaving point: what the other agents do there is the head of `between`. -/
def interleave (running : Option Context) (s : State) : State :=
  match s.between with
  | [] => s
  | ms :: rest => moves running ms { s with between := rest }

/-! ## Running a context -/

/-- At most `n` actions of the caller's operation, an interleaving point before each. -/
def runCaller (n : Nat) (s : State) : State :=
  match n with
  | 0 => s
  | n + 1 =>
    match s.caller.todo with
    | [] => s
    | _ :: _ => runCaller n (stepThread .caller (interleave (some .caller) s))

/-- The caller's operation in progress runs to its end. -/
def finishCaller (s : State) : State := runCaller s.caller.todo.length s

/-- The caller issues an operation, which runs to its end; one still in progress ends first (R67, R215). There is an
interleaving point before the operation's checks, and one before each of its actions (R68). -/
def callerOperation (op : Operation) (s : State) : State :=
  finishCaller (issue .caller op (interleave (some .caller) (finishCaller s)))

/-- At most `n` steps of the handler run in progress, an interleaving point before each. -/
def runHandler (n : Nat) (s : State) : State :=
  match n with
  | 0 => s
  | n + 1 => if s.phase = .idle then s else runHandler n (irqStep (interleave (some .irq) s))

/-- The steps a handler run whose body runs may still take: the longest plan has ten actions (R179), issuing an
operation is one step, and so is the return. -/
def bodySteps (s : State) : Nat :=
  match s.phase with
  | .body rest => s.irq.todo.length + 11 * rest.length + 1
  | _ => 0

/-- The handler run in progress runs to its end: three steps bring it to its body, or end it. -/
def finishHandler (s : State) : State := runHandler (bodySteps (runHandler 3 s)) (runHandler 3 s)

end Sys2Proof.Machine
end

