-- ==== Sys2Proof/Machine/Access.lean ====
section
/-! DEFINITION. Immediate register accesses by the caller: `RD`, `WR`, `WRM` (R110 to R113), one meaning per register.
Each is the shared operation on its register; a model fault or a refusal is recorded in the next state (R200). -/

namespace Sys2Proof.Machine

/-! ## RD -/

/-- `RD INT_ENABLE` (R110, R22). -/
def execRdIntEnable (s : State) : Host.Outcome State Fault Refusal :=
  .next (callerOperation (.rd .intEnable) s)

/-- `RD INT_STATUS` (R110, R23). -/
def execRdIntStatus (s : State) : Host.Outcome State Fault Refusal :=
  .next (callerOperation (.rd .intStatus) s)

/-- `RD GLOBAL_CON` (R110, R25). -/
def execRdGlobalCon (s : State) : Host.Outcome State Fault Refusal :=
  .next (callerOperation (.rd .globalCon) s)

/-- `RD SIZE_CON_0` (R110, R26). -/
def execRdSizeCon0 (s : State) : Host.Outcome State Fault Refusal :=
  .next (callerOperation (.rd .sizeCon0) s)

/-- `RD SIZE_CON_1` (R110, R27). -/
def execRdSizeCon1 (s : State) : Host.Outcome State Fault Refusal :=
  .next (callerOperation (.rd .sizeCon1) s)

/-- `RD MEM_CON` (R110, R28). -/
def execRdMemCon (s : State) : Host.Outcome State Fault Refusal :=
  .next (callerOperation (.rd .memCon) s)

/-- `RD MEM_SRC_PITCH` (R110, R29). -/
def execRdMemSrcPitch (s : State) : Host.Outcome State Fault Refusal :=
  .next (callerOperation (.rd .memSrcPitch) s)

/-- `RD MEM_GMC_SETTING_0` (R110, R30). -/
def execRdMemGmcSetting0 (s : State) : Host.Outcome State Fault Refusal :=
  .next (callerOperation (.rd .memGmcSetting0) s)

/-- `RD FIFO_CON` (R110, R31). -/
def execRdFifoCon (s : State) : Host.Outcome State Fault Refusal :=
  .next (callerOperation (.rd .fifoCon) s)

/-- `RD MEM_START_ADDR` (R110, R32). -/
def execRdMemStartAddr (s : State) : Host.Outcome State Fault Refusal :=
  .next (callerOperation (.rd .memStartAddr) s)

/-! ## WR -/

/-- `WR INT_ENABLE, v` (R111, R22). -/
def execWrIntEnable (v : Word) (s : State) : Host.Outcome State Fault Refusal :=
  .next (callerOperation (.wr .intEnable v) s)

/-- `WR INT_STATUS, v` (R112, R23). -/
def execWrIntStatus (v : Word) (s : State) : Host.Outcome State Fault Refusal :=
  .next (callerOperation (.wr .intStatus v) s)

/-- `WR GLOBAL_CON, v` (R111, R25). -/
def execWrGlobalCon (v : Word) (s : State) : Host.Outcome State Fault Refusal :=
  .next (callerOperation (.wr .globalCon v) s)

/-- `WR SIZE_CON_0, v` (R111, R26). -/
def execWrSizeCon0 (v : Word) (s : State) : Host.Outcome State Fault Refusal :=
  .next (callerOperation (.wr .sizeCon0 v) s)

/-- `WR SIZE_CON_1, v` (R111, R27). -/
def execWrSizeCon1 (v : Word) (s : State) : Host.Outcome State Fault Refusal :=
  .next (callerOperation (.wr .sizeCon1 v) s)

/-- `WR MEM_CON, v` (R111, R28). -/
def execWrMemCon (v : Word) (s : State) : Host.Outcome State Fault Refusal :=
  .next (callerOperation (.wr .memCon v) s)

/-- `WR MEM_SRC_PITCH, v` (R111, R29). -/
def execWrMemSrcPitch (v : Word) (s : State) : Host.Outcome State Fault Refusal :=
  .next (callerOperation (.wr .memSrcPitch v) s)

/-- `WR MEM_GMC_SETTING_0, v` (R111, R30). -/
def execWrMemGmcSetting0 (v : Word) (s : State) : Host.Outcome State Fault Refusal :=
  .next (callerOperation (.wr .memGmcSetting0 v) s)

/-- `WR FIFO_CON, v` (R111, R31). -/
def execWrFifoCon (v : Word) (s : State) : Host.Outcome State Fault Refusal :=
  .next (callerOperation (.wr .fifoCon v) s)

/-- `WR MEM_START_ADDR, v` (R111, R32). -/
def execWrMemStartAddr (v : Word) (s : State) : Host.Outcome State Fault Refusal :=
  .next (callerOperation (.wr .memStartAddr v) s)

/-! ## WRM -/

/-- `WRM INT_ENABLE, v, m` (R113, R22). -/
def execWrmIntEnable (v m : Word) (s : State) : Host.Outcome State Fault Refusal :=
  .next (callerOperation (.wrm .intEnable v m) s)

/-- `WRM INT_STATUS, v, m` (R113, R23). -/
def execWrmIntStatus (v m : Word) (s : State) : Host.Outcome State Fault Refusal :=
  .next (callerOperation (.wrm .intStatus v m) s)

/-- `WRM GLOBAL_CON, v, m` (R113, R25). -/
def execWrmGlobalCon (v m : Word) (s : State) : Host.Outcome State Fault Refusal :=
  .next (callerOperation (.wrm .globalCon v m) s)

/-- `WRM SIZE_CON_0, v, m` (R113, R26). -/
def execWrmSizeCon0 (v m : Word) (s : State) : Host.Outcome State Fault Refusal :=
  .next (callerOperation (.wrm .sizeCon0 v m) s)

/-- `WRM SIZE_CON_1, v, m` (R113, R27). -/
def execWrmSizeCon1 (v m : Word) (s : State) : Host.Outcome State Fault Refusal :=
  .next (callerOperation (.wrm .sizeCon1 v m) s)

/-- `WRM MEM_CON, v, m` (R113, R28). -/
def execWrmMemCon (v m : Word) (s : State) : Host.Outcome State Fault Refusal :=
  .next (callerOperation (.wrm .memCon v m) s)

/-- `WRM MEM_SRC_PITCH, v, m` (R113, R29). -/
def execWrmMemSrcPitch (v m : Word) (s : State) : Host.Outcome State Fault Refusal :=
  .next (callerOperation (.wrm .memSrcPitch v m) s)

/-- `WRM MEM_GMC_SETTING_0, v, m` (R113, R30). -/
def execWrmMemGmcSetting0 (v m : Word) (s : State) : Host.Outcome State Fault Refusal :=
  .next (callerOperation (.wrm .memGmcSetting0 v m) s)

/-- `WRM FIFO_CON, v, m` (R113, R31). -/
def execWrmFifoCon (v m : Word) (s : State) : Host.Outcome State Fault Refusal :=
  .next (callerOperation (.wrm .fifoCon v m) s)

/-- `WRM MEM_START_ADDR, v, m` (R113, R32). -/
def execWrmMemStartAddr (v m : Word) (s : State) : Host.Outcome State Fault Refusal :=
  .next (callerOperation (.wrm .memStartAddr v m) s)

end Sys2Proof.Machine
end

