-- ==== Sys2Proof/Machine/Control.lean ====
section
/-! DEFINITION. The controller operations issued by the caller (41, 42, 43), one meaning per operation. Each expands to
the plan of its rule (R100) and runs to its end. -/

namespace Sys2Proof.Machine

/-- `configure_geometry` (R172). -/
def execOpConfigureGeometry (width height refreshRate bpc useBatch : Word) (s : State) : Host.Outcome State Fault Refusal :=
  .next (callerOperation (.ctrl (.configureGeometry width height refreshRate bpc useBatch)) s)

/-- `start` (R173). -/
def execOpStart (s : State) : Host.Outcome State Fault Refusal :=
  .next (callerOperation (.ctrl .start) s)

/-- `stop` (R174). -/
def execOpStop (s : State) : Host.Outcome State Fault Refusal :=
  .next (callerOperation (.ctrl .stop) s)

/-- `enable_vblank` (R175). -/
def execOpEnableVblank (s : State) : Host.Outcome State Fault Refusal :=
  .next (callerOperation (.ctrl .enableVblank) s)

/-- `disable_vblank` (R176). -/
def execOpDisableVblank (s : State) : Host.Outcome State Fault Refusal :=
  .next (callerOperation (.ctrl .disableVblank) s)

/-- `register_callback` (R177). -/
def execOpRegisterCallback (fn ctx : Word) (s : State) : Host.Outcome State Fault Refusal :=
  .next (callerOperation (.ctrl (.registerCallback fn ctx)) s)

/-- `clear_callback` (R178). -/
def execOpClearCallback (s : State) : Host.Outcome State Fault Refusal :=
  .next (callerOperation (.ctrl .clearCallback) s)

/-- `configure_layer` (R179). -/
def execOpConfigureLayer (index address pitch format useBatch : Word) (s : State) : Host.Outcome State Fault Refusal :=
  .next (callerOperation (.ctrl (.configureLayer index address pitch format useBatch)) s)

/-- `clock_enable` (R180). -/
def execOpClockEnable (s : State) : Host.Outcome State Fault Refusal :=
  .next (callerOperation (.ctrl .clockEnable) s)

/-- `clock_disable` (R181). -/
def execOpClockDisable (s : State) : Host.Outcome State Fault Refusal :=
  .next (callerOperation (.ctrl .clockDisable) s)

/-- `query_supported_formats` (R182). -/
def execOpQuerySupportedFormats (s : State) : Host.Outcome State Fault Refusal :=
  .next (callerOperation (.ctrl .querySupportedFormats) s)

/-- `translate` (R130). -/
def execOpTranslate (format : Word) (s : State) : Host.Outcome State Fault Refusal :=
  .next (callerOperation (.translate format) s)

/-- `compute_fifo_params` (R151). -/
def execOpComputeFifoParams (capacity : Word) (s : State) : Host.Outcome State Fault Refusal :=
  .next (callerOperation (.computeFifoParams capacity) s)

/-- `resolve_fifo_capacity` (R150). -/
def execOpResolveFifoCapacity (s : State) : Host.Outcome State Fault Refusal :=
  .next (callerOperation (.resolveFifoCapacity) s)

/-- `batch_begin` (R183). -/
def execOpBatchBegin (s : State) : Host.Outcome State Fault Refusal :=
  .next (callerOperation (.ctrl .batchBegin) s)

/-- `batch_submit` (R184). -/
def execOpBatchSubmit (s : State) : Host.Outcome State Fault Refusal :=
  .next (callerOperation (.ctrl .batchSubmit) s)

end Sys2Proof.Machine
end

