-- ==== Sys2Proof/Machine/Events.lean ====
section
/-! DEFINITION. The agent events (R84) and the illegal descriptor (R97). -/

namespace Sys2Proof.Machine

/-- `EV engine_event bits` (R203). Where it is not enabled there is no step. -/
def execEvEngineEvent (bits : Sources) (s : State) : Host.Outcome State Fault Refusal :=
  if engineMayRaise s then .next (raiseStatus bits s) else .fault .engineEventNotEnabled

/-- `EV irq_handler` (R206): the platform starts a handler run, which runs to its end. A run already in progress ends
first, since two runs never overlap (R204, R209). -/
def execEvIrqHandler (s : State) : Host.Outcome State Fault Refusal :=
  .next (finishHandler (deliver (finishHandler s)))

/-- `EV batch_execute` (R185). Where no batch is submitted there is no step. -/
def execEvBatchExecute (s : State) : Host.Outcome State Fault Refusal :=
  match s.batch with
  | .submitted es => .next (executeBatch es s)
  | .noBatch => .fault .batchExecuteNotEnabled
  | .recording _ => .fault .batchExecuteNotEnabled

/-- The model fault of a descriptor of class 0x1 to 0x5 whose offset is no register's under `P_OFF_*` (R63, R82). -/
def illegalAccessFault (o : Offsets) (d : Half) : Option ModelFault :=
  if 0x1 ≤ (d.extractLsb' 12 4).toNat ∧ (d.extractLsb' 12 4).toNat ≤ 0x5 then
    match regOfOffset o (d.extractLsb' 0 12) with
    | none => some (.undefinedRegister (d.extractLsb' 0 12))
    | some _ => none
  else none

/-- An illegal descriptor: executing it sets the refusal mark (R97), and an access to an undefined offset also records
its fault (R63, R82; log entry 12). Its operand words are consumed with it and have no effect. It is no agent's
operation, so it returns nothing. -/
def execIllegal (d : IllegalItem) (s : State) : Host.Outcome State Fault Refusal :=
  .next
    (match illegalAccessFault s.params.offsets d.descriptor with
      | some f => recordFault f (markRefused s)
      | none => markRefused s)

end Sys2Proof.Machine
end

