-- ==== Sys2Proof/Machine/Record.lean ====
section
/-! DEFINITION. Recording into the command batch by the caller: `BWR`, `BWRM` (R114, R115), one meaning per register.
Recording reads and changes no register and makes no bus transaction (R70). -/

namespace Sys2Proof.Machine

/-! ## BWR -/

/-- `BWR INT_ENABLE, v` (R114, R22). -/
def execBwrIntEnable (v : Word) (s : State) : Host.Outcome State Fault Refusal :=
  .next (callerOperation (.bwr .intEnable v) s)

/-- `BWR INT_STATUS, v` (R114, R23). -/
def execBwrIntStatus (v : Word) (s : State) : Host.Outcome State Fault Refusal :=
  .next (callerOperation (.bwr .intStatus v) s)

/-- `BWR GLOBAL_CON, v` (R114, R25). -/
def execBwrGlobalCon (v : Word) (s : State) : Host.Outcome State Fault Refusal :=
  .next (callerOperation (.bwr .globalCon v) s)

/-- `BWR SIZE_CON_0, v` (R114, R26). -/
def execBwrSizeCon0 (v : Word) (s : State) : Host.Outcome State Fault Refusal :=
  .next (callerOperation (.bwr .sizeCon0 v) s)

/-- `BWR SIZE_CON_1, v` (R114, R27). -/
def execBwrSizeCon1 (v : Word) (s : State) : Host.Outcome State Fault Refusal :=
  .next (callerOperation (.bwr .sizeCon1 v) s)

/-- `BWR MEM_CON, v` (R114, R28). -/
def execBwrMemCon (v : Word) (s : State) : Host.Outcome State Fault Refusal :=
  .next (callerOperation (.bwr .memCon v) s)

/-- `BWR MEM_SRC_PITCH, v` (R114, R29). -/
def execBwrMemSrcPitch (v : Word) (s : State) : Host.Outcome State Fault Refusal :=
  .next (callerOperation (.bwr .memSrcPitch v) s)

/-- `BWR MEM_GMC_SETTING_0, v` (R114, R30). -/
def execBwrMemGmcSetting0 (v : Word) (s : State) : Host.Outcome State Fault Refusal :=
  .next (callerOperation (.bwr .memGmcSetting0 v) s)

/-- `BWR FIFO_CON, v` (R114, R31). -/
def execBwrFifoCon (v : Word) (s : State) : Host.Outcome State Fault Refusal :=
  .next (callerOperation (.bwr .fifoCon v) s)

/-- `BWR MEM_START_ADDR, v` (R114, R32). -/
def execBwrMemStartAddr (v : Word) (s : State) : Host.Outcome State Fault Refusal :=
  .next (callerOperation (.bwr .memStartAddr v) s)

/-! ## BWRM -/

/-- `BWRM INT_ENABLE, v, m` (R115, R22). -/
def execBwrmIntEnable (v m : Word) (s : State) : Host.Outcome State Fault Refusal :=
  .next (callerOperation (.bwrm .intEnable v m) s)

/-- `BWRM INT_STATUS, v, m` (R115, R23). -/
def execBwrmIntStatus (v m : Word) (s : State) : Host.Outcome State Fault Refusal :=
  .next (callerOperation (.bwrm .intStatus v m) s)

/-- `BWRM GLOBAL_CON, v, m` (R115, R25). -/
def execBwrmGlobalCon (v m : Word) (s : State) : Host.Outcome State Fault Refusal :=
  .next (callerOperation (.bwrm .globalCon v m) s)

/-- `BWRM SIZE_CON_0, v, m` (R115, R26). -/
def execBwrmSizeCon0 (v m : Word) (s : State) : Host.Outcome State Fault Refusal :=
  .next (callerOperation (.bwrm .sizeCon0 v m) s)

/-- `BWRM SIZE_CON_1, v, m` (R115, R27). -/
def execBwrmSizeCon1 (v m : Word) (s : State) : Host.Outcome State Fault Refusal :=
  .next (callerOperation (.bwrm .sizeCon1 v m) s)

/-- `BWRM MEM_CON, v, m` (R115, R28). -/
def execBwrmMemCon (v m : Word) (s : State) : Host.Outcome State Fault Refusal :=
  .next (callerOperation (.bwrm .memCon v m) s)

/-- `BWRM MEM_SRC_PITCH, v, m` (R115, R29). -/
def execBwrmMemSrcPitch (v m : Word) (s : State) : Host.Outcome State Fault Refusal :=
  .next (callerOperation (.bwrm .memSrcPitch v m) s)

/-- `BWRM MEM_GMC_SETTING_0, v, m` (R115, R30). -/
def execBwrmMemGmcSetting0 (v m : Word) (s : State) : Host.Outcome State Fault Refusal :=
  .next (callerOperation (.bwrm .memGmcSetting0 v m) s)

/-- `BWRM FIFO_CON, v, m` (R115, R31). -/
def execBwrmFifoCon (v m : Word) (s : State) : Host.Outcome State Fault Refusal :=
  .next (callerOperation (.bwrm .fifoCon v m) s)

/-- `BWRM MEM_START_ADDR, v, m` (R115, R32). -/
def execBwrmMemStartAddr (v m : Word) (s : State) : Host.Outcome State Fault Refusal :=
  .next (callerOperation (.bwrm .memStartAddr v m) s)

end Sys2Proof.Machine
end

