-- ==== Sys2Proof/Machine/Dispatch.lean ====
section
/-! DEFINITION. The meaning of every instruction: one arm per constructor, each one direct call. -/

namespace Sys2Proof.Machine

def exec (i : Instr) (s : State) : Host.Outcome State Fault Refusal :=
  match i with
  | .rdIntEnable => Sys2Proof.Machine.execRdIntEnable s
  | .rdIntStatus => Sys2Proof.Machine.execRdIntStatus s
  | .rdGlobalCon => Sys2Proof.Machine.execRdGlobalCon s
  | .rdSizeCon0 => Sys2Proof.Machine.execRdSizeCon0 s
  | .rdSizeCon1 => Sys2Proof.Machine.execRdSizeCon1 s
  | .rdMemCon => Sys2Proof.Machine.execRdMemCon s
  | .rdMemSrcPitch => Sys2Proof.Machine.execRdMemSrcPitch s
  | .rdMemGmcSetting0 => Sys2Proof.Machine.execRdMemGmcSetting0 s
  | .rdFifoCon => Sys2Proof.Machine.execRdFifoCon s
  | .rdMemStartAddr => Sys2Proof.Machine.execRdMemStartAddr s
  | .wrIntEnable v => Sys2Proof.Machine.execWrIntEnable v s
  | .wrIntStatus v => Sys2Proof.Machine.execWrIntStatus v s
  | .wrGlobalCon v => Sys2Proof.Machine.execWrGlobalCon v s
  | .wrSizeCon0 v => Sys2Proof.Machine.execWrSizeCon0 v s
  | .wrSizeCon1 v => Sys2Proof.Machine.execWrSizeCon1 v s
  | .wrMemCon v => Sys2Proof.Machine.execWrMemCon v s
  | .wrMemSrcPitch v => Sys2Proof.Machine.execWrMemSrcPitch v s
  | .wrMemGmcSetting0 v => Sys2Proof.Machine.execWrMemGmcSetting0 v s
  | .wrFifoCon v => Sys2Proof.Machine.execWrFifoCon v s
  | .wrMemStartAddr v => Sys2Proof.Machine.execWrMemStartAddr v s
  | .wrmIntEnable v m => Sys2Proof.Machine.execWrmIntEnable v m s
  | .wrmIntStatus v m => Sys2Proof.Machine.execWrmIntStatus v m s
  | .wrmGlobalCon v m => Sys2Proof.Machine.execWrmGlobalCon v m s
  | .wrmSizeCon0 v m => Sys2Proof.Machine.execWrmSizeCon0 v m s
  | .wrmSizeCon1 v m => Sys2Proof.Machine.execWrmSizeCon1 v m s
  | .wrmMemCon v m => Sys2Proof.Machine.execWrmMemCon v m s
  | .wrmMemSrcPitch v m => Sys2Proof.Machine.execWrmMemSrcPitch v m s
  | .wrmMemGmcSetting0 v m => Sys2Proof.Machine.execWrmMemGmcSetting0 v m s
  | .wrmFifoCon v m => Sys2Proof.Machine.execWrmFifoCon v m s
  | .wrmMemStartAddr v m => Sys2Proof.Machine.execWrmMemStartAddr v m s
  | .bwrIntEnable v => Sys2Proof.Machine.execBwrIntEnable v s
  | .bwrIntStatus v => Sys2Proof.Machine.execBwrIntStatus v s
  | .bwrGlobalCon v => Sys2Proof.Machine.execBwrGlobalCon v s
  | .bwrSizeCon0 v => Sys2Proof.Machine.execBwrSizeCon0 v s
  | .bwrSizeCon1 v => Sys2Proof.Machine.execBwrSizeCon1 v s
  | .bwrMemCon v => Sys2Proof.Machine.execBwrMemCon v s
  | .bwrMemSrcPitch v => Sys2Proof.Machine.execBwrMemSrcPitch v s
  | .bwrMemGmcSetting0 v => Sys2Proof.Machine.execBwrMemGmcSetting0 v s
  | .bwrFifoCon v => Sys2Proof.Machine.execBwrFifoCon v s
  | .bwrMemStartAddr v => Sys2Proof.Machine.execBwrMemStartAddr v s
  | .bwrmIntEnable v m => Sys2Proof.Machine.execBwrmIntEnable v m s
  | .bwrmIntStatus v m => Sys2Proof.Machine.execBwrmIntStatus v m s
  | .bwrmGlobalCon v m => Sys2Proof.Machine.execBwrmGlobalCon v m s
  | .bwrmSizeCon0 v m => Sys2Proof.Machine.execBwrmSizeCon0 v m s
  | .bwrmSizeCon1 v m => Sys2Proof.Machine.execBwrmSizeCon1 v m s
  | .bwrmMemCon v m => Sys2Proof.Machine.execBwrmMemCon v m s
  | .bwrmMemSrcPitch v m => Sys2Proof.Machine.execBwrmMemSrcPitch v m s
  | .bwrmMemGmcSetting0 v m => Sys2Proof.Machine.execBwrmMemGmcSetting0 v m s
  | .bwrmFifoCon v m => Sys2Proof.Machine.execBwrmFifoCon v m s
  | .bwrmMemStartAddr v m => Sys2Proof.Machine.execBwrmMemStartAddr v m s
  | .opConfigureGeometry width height refreshRate bpc useBatch => Sys2Proof.Machine.execOpConfigureGeometry width height refreshRate bpc useBatch s
  | .opStart => Sys2Proof.Machine.execOpStart s
  | .opStop => Sys2Proof.Machine.execOpStop s
  | .opEnableVblank => Sys2Proof.Machine.execOpEnableVblank s
  | .opDisableVblank => Sys2Proof.Machine.execOpDisableVblank s
  | .opRegisterCallback fn ctx => Sys2Proof.Machine.execOpRegisterCallback fn ctx s
  | .opClearCallback => Sys2Proof.Machine.execOpClearCallback s
  | .opConfigureLayer index address pitch format useBatch => Sys2Proof.Machine.execOpConfigureLayer index address pitch format useBatch s
  | .opClockEnable => Sys2Proof.Machine.execOpClockEnable s
  | .opClockDisable => Sys2Proof.Machine.execOpClockDisable s
  | .opQuerySupportedFormats => Sys2Proof.Machine.execOpQuerySupportedFormats s
  | .opTranslate format => Sys2Proof.Machine.execOpTranslate format s
  | .opComputeFifoParams capacity => Sys2Proof.Machine.execOpComputeFifoParams capacity s
  | .opResolveFifoCapacity => Sys2Proof.Machine.execOpResolveFifoCapacity s
  | .opBatchBegin => Sys2Proof.Machine.execOpBatchBegin s
  | .opBatchSubmit => Sys2Proof.Machine.execOpBatchSubmit s
  | .evEngineEvent bits => Sys2Proof.Machine.execEvEngineEvent bits s
  | .evIrqHandler => Sys2Proof.Machine.execEvIrqHandler s
  | .evBatchExecute => Sys2Proof.Machine.execEvBatchExecute s
  | .illegal d => Sys2Proof.Machine.execIllegal d s

end Sys2Proof.Machine
end

