-- ==== Sys2Proof/Machine/Step.lean ====
section
/-! DEFINITION. One step: the next item of the stream is decoded and executed. With no item to issue, the other agents
take the steps of one interleaving point. -/

namespace Sys2Proof.Machine

/-- The refusal of bytes that are no item. -/
def decodeRefusal (why : DecodeError) : Refusal :=
  match why with
  | .truncated => .truncatedItem
  | .reservedEventBits => .reservedEventBits

/-- One step of the machine. -/
def step (s : State) : Host.Outcome State Fault Refusal :=
  match s.stream with
  | [] => .next (interleave none s)
  | b :: bs =>
    match decode s.params.offsets (b :: bs) with
    | .item i rest => exec i { s with stream := rest }
    | .rejected why => .refused (decodeRefusal why)

/-- `s` with the instruction of the table word `w` as all that is left of the stream, so that the next step runs it. -/
def State.withFetchWord (s : State) (nbits w : Nat) : State :=
  { s with stream := itemBytes s.params.offsets (tableBytes nbits w) }

end Sys2Proof.Machine
end

