-- ==== Sys2Proof/Machine/Bind.lean ====
section
/-! DEFINITION. Bind (R230) and the errors of R211. Bind is how an instance comes into being; it is no item of the
stream, and `State.reset` is one of its results. -/

namespace Sys2Proof.Machine

/-- The codes E1 to E3 (R211). -/
def errorCode (e : CtrlError) : Nat :=
  match e with
  | .clockAcquisitionFailure => 1
  | .resourceUnavailable => 2
  | .invalidConfigurationData => 3

/-- The optional FIFO-size override in the configuration data (R230). -/
inductive OverrideField where
  | absent
  | value (v : Word)
  | unparsable
  deriving DecidableEq, Repr

/-- What bind finds: the hardware's fields after reset, the parameters, the variant resolved from the device identifier
and whether its data parsed, whether the register space and the interrupt line can be obtained, the override field, and
whether there is a command-queue client (R230, R231). -/
structure BindInput where
  drawn : Regs
  params : Params
  variant : Variant
  variantParsed : Bool
  registerSpace : Bool
  interruptLine : Bool
  overrideField : OverrideField
  client : Bool
  deriving DecidableEq, Repr

/-- How a bind ends: an instance, perhaps with a warning, or an error and no instance (R211, R230). That a failed bind
surfaces no warning beside its error is a DESIGN CHOICE (log entry 24). -/
inductive BindResult where
  | bound (s : State) (warning : Option CtrlError)
  | failed (e : CtrlError)
  deriving DecidableEq, Repr

/-- `fifo_override` at bind: absent and unparsable both give 0, "use variant default" (R36, R230, D16). -/
def overrideValue (f : OverrideField) : Word :=
  match f with
  | .absent => 0#32
  | .value v => v
  | .unparsable => 0#32

/-- Whether bind warns of `InvalidConfigurationData` (R211). -/
def configurationInvalid (i : BindInput) : Bool := !i.variantParsed || i.overrideField == .unparsable

/-- Bind (R230). It writes no register. Where the variant's data does not parse and the register space or the interrupt
line cannot be obtained either, the answer is `ResourceUnavailable` alone: DESIGN CHOICE, the spec does not say whether
the warning is surfaced as well (log entry 24). -/
def bindInstance (i : BindInput) : BindResult :=
  if i.registerSpace && i.interruptLine then
    .bound (State.instantiate i.drawn i.params i.variant (overrideValue i.overrideField) i.client)
      (if configurationInvalid i then some .invalidConfigurationData else none)
  else .failed .resourceUnavailable

end Sys2Proof.Machine
end

