-- ==== Sys2Proof/Safety.lean ====
section
/-! DEFINITION. The terms claims are stated in: a good final state (R212), a state no other agent disturbs, what every
step keeps (R35 to R37, R42, R43), the invariant of the model, and the fairness the spec assumes of runs (D11, D14). -/

namespace Sys2Proof.Machine

/-- A good final state: no fault recorded, no refusal (R212, R213). -/
def Clean (s : State) : Prop := s.faults = [] ∧ s.refused = false

/-- The caller has no operation in progress, and no other agent acts at the coming interleaving points. -/
def Quiet (s : State) : Prop := s.between = [] ∧ s.caller.todo = []

/-- No handler run is in progress, and no other agent acts at the coming interleaving points. -/
def HandlerQuiet (s : State) : Prop := s.between = [] ∧ s.phase = .idle

/-- The clock is on (R39). -/
def ClockOn (s : State) : Prop := 0 < s.clkCount

/-- The `Access` event of a read of `r` that takes draw `n` over the fields `g` (R43, R110). -/
def readEvent (c : Context) (r : Reg) (n : Nat) (g : Regs) : Event :=
  .access c.agent .rd r none none (some (readValue r n g))

/-- The `Access` event of a plain write (R43, R111). -/
def writeEvent (c : Context) (r : Reg) (v : Word) : Event := .access c.agent .wr r (some v) none none

/-- The `Access` event of the second transaction of a masked write (R43, R113). -/
def maskedWriteEvent (c : Context) (r : Reg) (v m : Word) : Event := .access c.agent .wrm r (some v) (some m) none

/-- The caller's operation is refused, and nothing else changes (R213). -/
def callerRefused (why : SpecRefusal) (s : State) : State :=
  { s with refused := true, caller := { s.caller with ret := .refused why } }

/-- The caller's operation faults for want of a clock at register `r`, and nothing else changes (R78, R212). -/
def callerUnclocked (r : Reg) (s : State) : State :=
  { s with
    faults := faultsWith (.unclockedAccess (regOffset s.params.offsets r)) s.faults,
    caller := { s.caller with ret := .faulted (.unclockedAccess (regOffset s.params.offsets r)) } }

/-- What holds between a state and any later one: the instance's fixed data and the parameters are unchanged (R35, R36,
R37), the history is only appended to (R43), no fault is removed and the refusal mark is never cleared (R42). -/
structure Extends (s t : State) : Prop where
  variant : t.variant = s.variant
  fifoOverride : t.fifoOverride = s.fifoOverride
  batchCapable : t.batchCapable = s.batchCapable
  params : t.params = s.params
  history : s.history <+: t.history
  faults : s.faults <+: t.faults
  refused : s.refused = true → t.refused = true

/-- The entries of a batch. -/
def batchEntries (b : Batch) : List BatchEntry :=
  match b with
  | .noBatch => []
  | .recording es => es
  | .submitted es => es

/-- What applying one admitted entry makes of the registers (R72, R116): a write of `INT_STATUS` clears the six bits, any
other write stores the named fields, and a masked write merges with the register as it stands. -/
def entryEffect (g : Regs) (e : BatchEntry) : Regs :=
  match e with
  | .write .intStatus _ => { g with intStatus := 0#6 }
  | .write r v => storeFields r v g
  | .writeMasked r v m => storeFields r ((regWord r g &&& ~~~m) ||| (v &&& m)) g

/-- Every entry of the batch is one that recording admits (R66, R114, R115). -/
abbrev BatchAdmitted (s : State) : Prop := ∀ e ∈ batchEntries s.batch, entryRefusal e = none

/-- The fault set holds no fault twice (R42). -/
abbrev FaultsDistinct (s : State) : Prop := s.faults.Nodup

/-- A batch exists only on an instance that is capable of one (R37, R183). -/
abbrev BatchOnlyIfCapable (s : State) : Prop := s.batch ≠ .noBatch → s.batchCapable = true

/-- Actions of an operation of the interrupt context are left only while a callback body runs (R206, R207). -/
abbrev IrqTodoOnlyInBody (s : State) : Prop :=
  match s.phase with
  | .body _ => True
  | _ => s.irq.todo = []

/-- The invariant that every step keeps. -/
abbrev Inv (s : State) : Prop := BatchAdmitted s ∧ FaultsDistinct s ∧ BatchOnlyIfCapable s ∧ IrqTodoOnlyInBody s

/-- The register of the first immediate access that an operation of a callback body makes; none where it makes no
immediate access, or is refused before one (R171 to R184). -/
def firstAccess (op : CtrlOp) : Option Reg :=
  match op with
  | .configureGeometry _ _ _ _ useBatch => if useBatch = 0#32 then some .sizeCon0 else none
  | .start => some .globalCon
  | .stop => some .globalCon
  | .enableVblank => some .intEnable
  | .disableVblank => some .intEnable
  | .registerCallback _ _ => none
  | .clearCallback => none
  | .configureLayer index _ _ _ useBatch => if index = 0#32 ∧ useBatch = 0#32 then some .memCon else none
  | .clockEnable => none
  | .clockDisable => none
  | .querySupportedFormats => none
  | .batchBegin => none
  | .batchSubmit => none

/-- The register at which a callback body that starts with the clock count `clk` faults, with no other agent in between;
none where nothing in it faults. Only `clock_disable` changes the count there (R180, R181), and an access faults exactly
at count 0 (R78). -/
def bodyFault (clk : Nat) (ops : List CtrlOp) : Option Reg :=
  match ops with
  | [] => none
  | op :: rest =>
    match if clk = 0 then firstAccess op else none with
    | some r => some r
    | none => bodyFault (if op = .clockDisable then clk - 1 else clk) rest

/-- Weak fairness of the coprocessor (D11): a batch does not stay submitted for ever while the clock is on. A duty of
the agent, not a step of the model; a liveness claim takes it as a premise. -/
def FairCoprocessor (run : Nat → State) : Prop :=
  ∀ n es, ¬ ∀ m, n ≤ m → (run m).batch = .submitted es ∧ ClockOn (run m)

/-- How many status clears the interrupt context has made: one per handler run that got that far (R206). -/
def statusClears (s : State) : Nat :=
  s.history.countP fun e => e == .access .irq .wr .intStatus (some 0#32) none none

/-- Weak fairness of the platform (D14): while the line stays asserted and the clock is on, a handler run clears the
status in the end. -/
def FairDelivery (run : Nat → State) : Prop :=
  ∀ n, (∀ m, n ≤ m → lineAsserted (run m).regs = true ∧ ClockOn (run m)) →
    ∃ m, n ≤ m ∧ statusClears (run n) < statusClears (run m)

end Sys2Proof.Machine
end

