-- ==== Sys2Proof/Certificates/Slice0/Obligations.lean ====
section
/-! DEFINITION. What is to be proved about the model. Each statement's docstring names the rules of spec/ it rests on. -/

open Sys2Proof Sys2Proof.Machine

/-! ## Register accesses -/

/-- R110, R65, R78: a read returns the register's word and changes nothing else; with the clock off it faults. That a
draw is Config.freeWord of the counter draws is the model's form (log entry 3, DESIGN CHOICE). -/
def Obligations.ReadCompletes : Prop :=
  ∀ (r : Reg) (s : State), Quiet s →
    exec (rdInstr r) s =
      .next
        (if 0 < s.clkCount then
          { s with
            draws := s.draws + 1,
            history := s.history ++ [readEvent .caller r s.draws s.regs],
            caller := { s.caller with ret := .word (readValue r s.draws s.regs) } }
        else callerUnclocked r s)

/-- R33: what a read returns is the named fields at their positions, and a free draw in every other position. That a
draw is Config.freeWord of the counter draws is the model's form (log entry 3, DESIGN CHOICE). Bit positions and offsets
are the spec's general-knowledge defaults (log entry 1, PRESUMED). -/
def Obligations.ReadValueNamedAndDrawn : Prop :=
  ∀ (r : Reg) (n : Nat) (g : Regs),
    readValue r n g &&& ~~~unnamedMask r = regWord r g
      ∧ readValue r n g &&& unnamedMask r = Config.freeWord n &&& unnamedMask r

/-- R22 to R32: the position of every named field, and the positions outside them. Bit positions and offsets are the
spec's general-knowledge defaults (log entry 1, PRESUMED). -/
def Obligations.FieldPositions : Prop :=
  ∀ g : Regs,
    (regWord .intEnable g).extractLsb' 0 6 = g.intEnable
      ∧ (regWord .intStatus g).extractLsb' 0 6 = g.intStatus
      ∧ (regWord .globalCon g).extractLsb' 0 1 = g.engineEn
      ∧ (regWord .globalCon g).extractLsb' 1 1 = g.modeMemory
      ∧ (regWord .sizeCon0 g).extractLsb' 0 12 = g.width
      ∧ (regWord .sizeCon0 g).extractLsb' 17 1 = g.matrixEnable
      ∧ (regWord .sizeCon0 g).extractLsb' 20 4 = g.mtxSel
      ∧ (regWord .sizeCon1 g).extractLsb' 0 20 = g.height
      ∧ (regWord .memCon g).extractLsb' 4 4 = g.inputFormat
      ∧ (regWord .memCon g).extractLsb' 8 1 = g.inputSwap
      ∧ (regWord .memSrcPitch g).extractLsb' 0 16 = g.pitch
      ∧ regWord .memGmcSetting0 g = g.gmc
      ∧ (regWord .fifoCon g).extractLsb' 31 1 = g.fifoUnderflowEn
      ∧ (regWord .fifoCon g).extractLsb' 16 15 = g.fifoPseudoSize
      ∧ (regWord .fifoCon g).extractLsb' 0 16 = g.fifoThreshold
      ∧ regWord .memStartAddr g = g.startAddr
      ∧ (∀ r, regWord r g &&& unnamedMask r = 0#32)
      ∧ unnamedMask .intEnable = ~~~0x0000003F#32
      ∧ unnamedMask .intStatus = ~~~0x0000003F#32
      ∧ unnamedMask .globalCon = ~~~0x00000003#32
      ∧ unnamedMask .sizeCon0 = ~~~0x00F20FFF#32
      ∧ unnamedMask .sizeCon1 = ~~~0x000FFFFF#32
      ∧ unnamedMask .memCon = ~~~0x000001F0#32
      ∧ unnamedMask .memSrcPitch = ~~~0x0000FFFF#32
      ∧ unnamedMask .memGmcSetting0 = ~~~0xFFFFFFFF#32
      ∧ unnamedMask .fifoCon = ~~~0xFFFFFFFF#32
      ∧ unnamedMask .memStartAddr = ~~~0xFFFFFFFF#32

/-- R111, R66: a plain write stores the named fields of its register and nothing else. Bit positions and offsets are the
spec's general-knowledge defaults (log entry 1, PRESUMED). -/
def Obligations.WriteCompletes : Prop :=
  ∀ (r : Reg) (v : Word) (s : State), r ≠ .intStatus → Quiet s →
    (0 < s.clkCount → ∃ t, exec (wrInstr r v) s = .next t
      ∧ regWord r t.regs = v &&& ~~~unnamedMask r
      ∧ (∀ r', r' ≠ r → regWord r' t.regs = regWord r' s.regs)
      ∧ t = { s with
          regs := t.regs,
          history := s.history ++ [writeEvent .caller r v],
          caller := { s.caller with ret := .ok } })
    ∧ (s.clkCount = 0 → exec (wrInstr r v) s = .next (callerUnclocked r s))

/-- R112: a write of 0 to `INT_STATUS` clears the six status bits; any other value is refused; the clock is checked
first. -/
def Obligations.StatusWriteClearsOrIsRefused : Prop :=
  ∀ (v : Word) (s : State), Quiet s →
    exec (.wrIntStatus v) s =
      .next
        (if s.clkCount = 0 then callerUnclocked .intStatus s
        else if v = 0#32 then
          { s with
            regs := { s.regs with intStatus := 0#6 },
            history := s.history ++ [writeEvent .caller .intStatus 0#32],
            caller := { s.caller with ret := .ok } }
        else callerRefused .nonzeroStatusWrite s)

/-- R113, R69: a masked write, with no other agent between its two transactions, stores `(old & ~m) | (v & m)` in the
named fields of its register, and nothing else. That the context keeps the named fields read is log entry 7 (DEDUCED).
That a draw is Config.freeWord of the counter draws is the model's form (log entry 3, DESIGN CHOICE). -/
def Obligations.MaskedWriteCompletes : Prop :=
  ∀ (r : Reg) (v m : Word) (s : State), r ≠ .intStatus → Quiet s →
    (0 < s.clkCount → ∃ t, exec (wrmInstr r v m) s = .next t
      ∧ regWord r t.regs = ((regWord r s.regs &&& ~~~m) ||| (v &&& m)) &&& ~~~unnamedMask r
      ∧ (∀ r', r' ≠ r → regWord r' t.regs = regWord r' s.regs)
      ∧ t = { s with
          regs := t.regs,
          draws := s.draws + 1,
          history := s.history ++ [readEvent .caller r s.draws s.regs, maskedWriteEvent .caller r v m],
          caller := { s.caller with old := regWord r s.regs, ret := .ok } })
    ∧ (s.clkCount = 0 → exec (wrmInstr r v m) s = .next (callerUnclocked r s))

/-- R113, R66: a masked write of `INT_STATUS` is refused before any check, and changes nothing else. -/
def Obligations.MaskedStatusWriteRefused : Prop :=
  ∀ (v m : Word) (s : State), Quiet s →
    exec (.wrmIntStatus v m) s = .next (callerRefused .maskedStatusWrite s)

/-- R113, R236: whatever the register holds by then, the second transaction of a masked write stores the word merged
over what the first one read, so a change made in between to bits outside the mask is undone. That old is the named
fields read is log entry 7 (DEDUCED). -/
def Obligations.MaskedWriteUndoesChangeBetween : Prop :=
  ∀ (c : Context) (r : Reg) (v m : Word) (rest : List Action) (s : State),
    (thread c s).todo = .maskedWrite r v m :: rest → r ≠ .intStatus → 0 < s.clkCount →
      regWord r (stepThread c s).regs = (((thread c s).old &&& ~~~m) ||| (v &&& m)) &&& ~~~unnamedMask r
        ∧ (∀ r', r' ≠ r → regWord r' (stepThread c s).regs = regWord r' s.regs)
        ∧ (thread c (stepThread c s)).todo = rest

/-- R68, R69: no step of another agent changes the word that the first transaction of a context's masked write read, nor
what is left of its operation. The form of the schedule is log entry 11 (DESIGN CHOICE). -/
def Obligations.OtherAgentsKeepContext : Prop :=
  ∀ (c : Context) (ms : List Move) (s : State), thread c (moves (some c) ms s) = thread c s

/-- R114: what recording a plain write does; the clock is not asked. -/
def Obligations.RecordWrite : Prop :=
  ∀ (r : Reg) (v : Word) (s : State), Quiet s →
    exec (bwrInstr r v) s =
      .next
        (if r = .intStatus ∧ v ≠ 0#32 then callerRefused .nonzeroStatusWrite s
        else
          match s.batch with
          | .recording es =>
            { s with batch := .recording (es ++ [.write r v]), caller := { s.caller with ret := .ok } }
          | .noBatch => callerRefused .noOpenBatch s
          | .submitted _ => callerRefused .appendAfterSubmit s)

/-- R115: what recording a masked write does. -/
def Obligations.RecordMaskedWrite : Prop :=
  ∀ (r : Reg) (v m : Word) (s : State), Quiet s →
    exec (bwrmInstr r v m) s =
      .next
        (if r = .intStatus then callerRefused .maskedStatusWrite s
        else
          match s.batch with
          | .recording es =>
            { s with batch := .recording (es ++ [.writeMasked r v m]), caller := { s.caller with ret := .ok } }
          | .noBatch => callerRefused .noOpenBatch s
          | .submitted _ => callerRefused .appendAfterSubmit s)

/-! ## Format translator and FIFO sizing -/

/-- R130: `translate` runs on every 32-bit value, answers the table's row and changes nothing else. The format codes are
the spec's general-knowledge values (log entry 1, PRESUMED). -/
def Obligations.TranslateCompletes : Prop :=
  ∀ (f : Word) (s : State), Quiet s →
    exec (.opTranslate f) s =
      .next
        { s with
          caller :=
            { s.caller with
              ret := .translation
                (if f = 0x36314752#32 then ⟨.rgb565, 0#1, false⟩
                else if f = 0x36314742#32 then ⟨.rgb565, 1#1, false⟩
                else if f = 0x34324752#32 then ⟨.rgb888, 0#1, false⟩
                else if f = 0x34324742#32 then ⟨.rgb888, 1#1, false⟩
                else if f = 0x34325852#32 ∨ f = 0x34324152#32 then ⟨.argb8888, 0#1, false⟩
                else if f = 0x34325842#32 ∨ f = 0x34324142#32 then ⟨.argb8888, 1#1, false⟩
                else if f = 0x34325258#32 ∨ f = 0x34325241#32 then ⟨.rgba8888, 0#1, false⟩
                else if f = 0x34324258#32 ∨ f = 0x34324241#32 then ⟨.rgba8888, 1#1, false⟩
                else if f = 0x59565955#32 then ⟨.uyvy, 0#1, true⟩
                else if f = 0x56595559#32 then ⟨.yuyv, 0#1, true⟩
                else ⟨.rgb565, 0#1, false⟩) } }

/-- R131 to R141: the rows, with the memory-format word each gives at the default codes. The codes are log entry 1
(PRESUMED). -/
def Obligations.TranslateRows : Prop :=
  (∀ f : PixelFormat,
    (translateFormat (formatCode f), memConWord HwCodeValues.default (translateFormat (formatCode f))) =
      (match f with
        | .rgb565 => (⟨.rgb565, 0#1, false⟩, 0x000#32)
        | .bgr565 => (⟨.rgb565, 1#1, false⟩, 0x100#32)
        | .rgb888 => (⟨.rgb888, 0#1, false⟩, 0x010#32)
        | .bgr888 => (⟨.rgb888, 1#1, false⟩, 0x110#32)
        | .rgbx8888 => (⟨.argb8888, 0#1, false⟩, 0x030#32)
        | .rgba8888 => (⟨.argb8888, 0#1, false⟩, 0x030#32)
        | .bgrx8888 => (⟨.argb8888, 1#1, false⟩, 0x130#32)
        | .bgra8888 => (⟨.argb8888, 1#1, false⟩, 0x130#32)
        | .xrgb8888 => (⟨.rgba8888, 0#1, false⟩, 0x020#32)
        | .argb8888 => (⟨.rgba8888, 0#1, false⟩, 0x020#32)
        | .xbgr8888 => (⟨.rgba8888, 1#1, false⟩, 0x120#32)
        | .abgr8888 => (⟨.rgba8888, 1#1, false⟩, 0x120#32)
        | .uyvy => (⟨.uyvy, 0#1, true⟩, 0x040#32)
        | .yuyv => (⟨.yuyv, 0#1, true⟩, 0x050#32)))
    ∧ ∀ w : Word, (∀ f : PixelFormat, w ≠ formatCode f) →
        translateFormat w = ⟨.rgb565, 0#1, false⟩ ∧ memConWord HwCodeValues.default (translateFormat w) = 0x000#32

/-- R142: exactly UYVY and YUYV need the color matrix, and no format has both the swap and the matrix. The codes are log
entry 1 (PRESUMED); the spec marks the rule as derived. -/
def Obligations.MatrixFormatsAreUyvyAndYuyv : Prop :=
  ∀ w : Word,
    ((translateFormat w).needsColorMatrix = true ↔ w = formatCode .uyvy ∨ w = formatCode .yuyv)
      ∧ ¬((translateFormat w).needsColorMatrix = true ∧ (translateFormat w).swap = 1#1)

/-- R151: `compute_fifo_params` runs on every capacity, over exact naturals, and changes nothing else. -/
def Obligations.ComputeFifoParamsCompletes : Prop :=
  ∀ (c : Word) (s : State), Quiet s →
    exec (.opComputeFifoParams c) s =
      .next { s with caller := { s.caller with ret := .fifoParams (c.toNat / 16) (c.toNat * 7 / 10 / 16) } }

/-- R152: the threshold is at most the pseudo size. -/
def Obligations.ThresholdAtMostPseudoSize : Prop := ∀ c : Nat, thresholdField c ≤ pseudoSizeField c

/-- R150: a nonzero override wins over the variant's capacity. R153: the result is refused outside `0 < C < 2^19`, which
is the spec's own decision D18. -/
def Obligations.ResolveCapacityCompletes : Prop :=
  ∀ (s : State) (c : Word), Quiet s →
    c = (if s.fifoOverride ≠ 0#32 then s.fifoOverride else s.variant.fifoCapacity) →
    exec .opResolveFifoCapacity s =
      .next
        (if 0 < c.toNat ∧ c.toNat < 2 ^ 19 then { s with caller := { s.caller with ret := .capacity c } }
        else callerRefused .capacityOutOfRange s)

/-- R90, R153, R154, R155: the three parts of the FIFO-control word do not overlap, for every admitted capacity. The
layout is log entry 1 (PRESUMED); the bounds are the spec's decision D19. -/
def Obligations.FifoWordParts : Prop :=
  ∀ (c : Word) (g : Regs), 0 < c.toNat → c.toNat < 2 ^ 19 →
    fifoWord c = BitVec.ofNat 32 (0x80000000 + c.toNat / 16 * 2 ^ 16 + c.toNat * 7 / 10 / 16)
      ∧ (storeFields .fifoCon (fifoWord c) g).fifoUnderflowEn = 1#1
      ∧ (storeFields .fifoCon (fifoWord c) g).fifoPseudoSize.toNat = c.toNat / 16
      ∧ (storeFields .fifoCon (fifoWord c) g).fifoThreshold.toNat = c.toNat * 7 / 10 / 16

/-! ## Controller operations -/

/-- R173: `start` sets `ENGINE_EN` and nothing else; with the clock off it faults at `GLOBAL_CON`. Bit positions and
offsets are the spec's general-knowledge defaults (log entry 1, PRESUMED). -/
def Obligations.StartSetsEngineEnable : Prop :=
  ∀ s : State, Quiet s →
    exec .opStart s =
      .next
        (if 0 < s.clkCount then
          { s with
            regs := { s.regs with engineEn := 1#1 },
            draws := s.draws + 1,
            history := s.history ++
              [readEvent .caller .globalCon s.draws s.regs, maskedWriteEvent .caller .globalCon 0x1#32 0x1#32],
            caller := { s.caller with old := regWord .globalCon s.regs, ret := .ok } }
        else callerUnclocked .globalCon s)

/-- R174: `stop` clears `ENGINE_EN` and nothing else. Bit positions and offsets are the spec's general-knowledge
defaults (log entry 1, PRESUMED). -/
def Obligations.StopClearsEngineEnable : Prop :=
  ∀ s : State, Quiet s →
    exec .opStop s =
      .next
        (if 0 < s.clkCount then
          { s with
            regs := { s.regs with engineEn := 0#1 },
            draws := s.draws + 1,
            history := s.history ++
              [readEvent .caller .globalCon s.draws s.regs, maskedWriteEvent .caller .globalCon 0x0#32 0x1#32],
            caller := { s.caller with old := regWord .globalCon s.regs, ret := .ok } }
        else callerUnclocked .globalCon s)

/-- R175: `enable_vblank` sets `INT_ENABLE[2]`; the other five enables and every status bit are kept. Bit positions and
offsets are the spec's general-knowledge defaults (log entry 1, PRESUMED). -/
def Obligations.EnableVblankSetsFrameEnd : Prop :=
  ∀ s : State, Quiet s →
    exec .opEnableVblank s =
      .next
        (if 0 < s.clkCount then
          { s with
            regs := { s.regs with intEnable := s.regs.intEnable ||| 0b000100#6 },
            draws := s.draws + 1,
            history := s.history ++
              [readEvent .caller .intEnable s.draws s.regs, maskedWriteEvent .caller .intEnable 0x4#32 0x4#32],
            caller := { s.caller with old := regWord .intEnable s.regs, ret := .ok } }
        else callerUnclocked .intEnable s)

/-- R176: `disable_vblank` clears `INT_ENABLE[2]`; the other five enables and every status bit are kept. Bit positions
and offsets are the spec's general-knowledge defaults (log entry 1, PRESUMED). -/
def Obligations.DisableVblankClearsFrameEnd : Prop :=
  ∀ s : State, Quiet s →
    exec .opDisableVblank s =
      .next
        (if 0 < s.clkCount then
          { s with
            regs := { s.regs with intEnable := s.regs.intEnable &&& 0b111011#6 },
            draws := s.draws + 1,
            history := s.history ++
              [readEvent .caller .intEnable s.draws s.regs, maskedWriteEvent .caller .intEnable 0x0#32 0x4#32],
            caller := { s.caller with old := regWord .intEnable s.regs, ret := .ok } }
        else callerUnclocked .intEnable s)

/-- R177, R178: the callback slot is replaced whole; nothing else changes, and no clock is needed. -/
def Obligations.CallbackSlotReplaced : Prop :=
  ∀ (fn ctx : Word) (s : State), Quiet s →
    exec (.opRegisterCallback fn ctx) s =
        .next { s with callback := some { fn := fn, ctx := ctx }, caller := { s.caller with ret := .ok } }
      ∧ exec .opClearCallback s = .next { s with callback := none, caller := { s.caller with ret := .ok } }

/-- R172, R150: `configure_geometry` without a batch. At an admitted capacity its three writes are made; at any other
the first two are made and the operation is then refused; with the clock off its first access faults and nothing after
it runs (R78, R212). Bit positions and offsets are the spec's general-knowledge defaults (log entry 1, PRESUMED). That a
draw is Config.freeWord of the counter draws is the model's form (log entry 3, DESIGN CHOICE). -/
def Obligations.GeometryImmediate : Prop :=
  ∀ (width height refreshRate bpc : Word) (s : State), Quiet s →
    (∀ c, 0 < s.clkCount → resolveCapacity s.fifoOverride s.variant.fifoCapacity = some c →
      exec (.opConfigureGeometry width height refreshRate bpc 0#32) s =
        .next
          { s with
            regs :=
              { s.regs with
                width := width.extractLsb' 0 12,
                height := height.extractLsb' 0 20,
                fifoUnderflowEn := 1#1,
                fifoPseudoSize := BitVec.ofNat 15 (c.toNat / 16),
                fifoThreshold := BitVec.ofNat 16 (c.toNat * 7 / 10 / 16) },
            draws := s.draws + 2,
            history := s.history ++
              [readEvent .caller .sizeCon0 s.draws s.regs,
               maskedWriteEvent .caller .sizeCon0 width 0x00000FFF#32,
               readEvent .caller .sizeCon1 (s.draws + 1) s.regs,
               maskedWriteEvent .caller .sizeCon1 height 0x000FFFFF#32,
               writeEvent .caller .fifoCon (fifoWord c)],
            caller := { s.caller with old := regWord .sizeCon1 s.regs, ret := .ok } })
    ∧ (0 < s.clkCount → resolveCapacity s.fifoOverride s.variant.fifoCapacity = none →
      exec (.opConfigureGeometry width height refreshRate bpc 0#32) s =
        .next
          { s with
            regs := { s.regs with width := width.extractLsb' 0 12, height := height.extractLsb' 0 20 },
            refused := true,
            draws := s.draws + 2,
            history := s.history ++
              [readEvent .caller .sizeCon0 s.draws s.regs,
               maskedWriteEvent .caller .sizeCon0 width 0x00000FFF#32,
               readEvent .caller .sizeCon1 (s.draws + 1) s.regs,
               maskedWriteEvent .caller .sizeCon1 height 0x000FFFFF#32],
            caller := { s.caller with old := regWord .sizeCon1 s.regs, ret := .refused .capacityOutOfRange } })
    ∧ (s.clkCount = 0 →
      exec (.opConfigureGeometry width height refreshRate bpc 0#32) s = .next (callerUnclocked .sizeCon0 s))

/-- R172, R150: `configure_geometry` into an open batch records its three writes, or at a capacity that is not admitted
the first two and is then refused; it changes no register. -/
def Obligations.GeometryBatched : Prop :=
  ∀ (width height refreshRate bpc : Word) (es : List BatchEntry) (s : State), Quiet s →
    s.batchCapable = true → s.batch = .recording es →
    (∀ c, resolveCapacity s.fifoOverride s.variant.fifoCapacity = some c →
      exec (.opConfigureGeometry width height refreshRate bpc 1#32) s =
        .next
          { s with
            batch := .recording (es ++
              [.writeMasked .sizeCon0 width 0x00000FFF#32, .writeMasked .sizeCon1 height 0x000FFFFF#32,
               .write .fifoCon (fifoWord c)]),
            caller := { s.caller with ret := .ok } })
    ∧ (resolveCapacity s.fifoOverride s.variant.fifoCapacity = none →
      exec (.opConfigureGeometry width height refreshRate bpc 1#32) s =
        .next
          { s with
            batch := .recording (es ++
              [.writeMasked .sizeCon0 width 0x00000FFF#32, .writeMasked .sizeCon1 height 0x000FFFFF#32]),
            refused := true,
            caller := { s.caller with ret := .refused .capacityOutOfRange } })

/-- R171: `configure_geometry` and `configure_layer` are refused, with nothing written, for a batch the instance is not
capable of, then with no open batch, and for a `use_batch` that is neither 0 nor 1. R179: `configure_layer` of a layer
other than 0 is refused before all of these, whatever `use_batch`. -/
def Obligations.ConfigureRefusedBeforeAnyWrite : Prop :=
  ∀ (a b c d u : Word) (s : State), Quiet s →
    (∀ why,
      (u = 1#32 ∧ s.batchCapable = false ∧ why = .batchNotCapable)
        ∨ (u = 1#32 ∧ s.batchCapable = true ∧ (∀ es, s.batch ≠ .recording es) ∧ why = .noOpenBatch)
        ∨ (u ≠ 0#32 ∧ u ≠ 1#32 ∧ why = .badOperand) →
      exec (.opConfigureGeometry a b c d u) s = .next (callerRefused why s)
        ∧ (a = 0#32 → exec (.opConfigureLayer a b c d u) s = .next (callerRefused why s)))
    ∧ (a ≠ 0#32 → exec (.opConfigureLayer a b c d u) s = .next (callerRefused .layerIndexNonzero s))

/-- R179: `configure_layer` without a batch, for a format that needs the color matrix; with the clock off its first
access, at `MEM_CON`, faults and nothing after it runs (R78, R212). Bit positions and offsets are the spec's
general-knowledge defaults (log entry 1, PRESUMED). That a draw is Config.freeWord of the counter draws is the model's
form (log entry 3, DESIGN CHOICE). -/
def Obligations.LayerImmediateYuv : Prop :=
  ∀ (address pitch format : Word) (s : State), Quiet s → (translateFormat format).needsColorMatrix = true →
    (0 < s.clkCount →
      exec (.opConfigureLayer 0#32 address pitch format 0#32) s =
        .next
          { s with
            regs :=
              { s.regs with
                inputFormat := hwCodeValue s.params.hwCodes (translateFormat format).hwCode,
                inputSwap := (translateFormat format).swap,
                matrixEnable := 1#1,
                mtxSel := s.params.bt601Sel,
                startAddr := address,
                pitch := pitch.extractLsb' 0 16,
                gmc := s.params.gmc,
                modeMemory := 1#1 },
            draws := s.draws + 3,
            history := s.history ++
              [writeEvent .caller .memCon (memConWord s.params.hwCodes (translateFormat format)),
               readEvent .caller .sizeCon0 s.draws s.regs,
               maskedWriteEvent .caller .sizeCon0 0x00020000#32 0x00020000#32,
               readEvent .caller .sizeCon0 (s.draws + 1) { s.regs with matrixEnable := 1#1 },
               maskedWriteEvent .caller .sizeCon0 (bt601Word s.params) 0x00F00000#32,
               writeEvent .caller .memStartAddr address,
               writeEvent .caller .memSrcPitch (pitch &&& 0x0000FFFF#32),
               writeEvent .caller .memGmcSetting0 s.params.gmc,
               readEvent .caller .globalCon (s.draws + 2) s.regs,
               maskedWriteEvent .caller .globalCon 0x2#32 0x2#32],
            caller := { s.caller with old := regWord .globalCon s.regs, ret := .ok } })
    ∧ (s.clkCount = 0 →
      exec (.opConfigureLayer 0#32 address pitch format 0#32) s = .next (callerUnclocked .memCon s))

/-- R179: `configure_layer` without a batch, for a format that needs no color matrix: the selector is kept; with the
clock off its first access faults and nothing after it runs (R78, R212). Bit
positions and offsets are the spec's general-knowledge defaults (log entry 1, PRESUMED). That a draw is Config.freeWord
of the counter draws is the model's form (log entry 3, DESIGN CHOICE). -/
def Obligations.LayerImmediateRgb : Prop :=
  ∀ (address pitch format : Word) (s : State), Quiet s → (translateFormat format).needsColorMatrix = false →
    (0 < s.clkCount →
      exec (.opConfigureLayer 0#32 address pitch format 0#32) s =
        .next
          { s with
            regs :=
              { s.regs with
                inputFormat := hwCodeValue s.params.hwCodes (translateFormat format).hwCode,
                inputSwap := (translateFormat format).swap,
                matrixEnable := 0#1,
                startAddr := address,
                pitch := pitch.extractLsb' 0 16,
                gmc := s.params.gmc,
                modeMemory := 1#1 },
            draws := s.draws + 2,
            history := s.history ++
              [writeEvent .caller .memCon (memConWord s.params.hwCodes (translateFormat format)),
               readEvent .caller .sizeCon0 s.draws s.regs,
               maskedWriteEvent .caller .sizeCon0 0x00000000#32 0x00020000#32,
               writeEvent .caller .memStartAddr address,
               writeEvent .caller .memSrcPitch (pitch &&& 0x0000FFFF#32),
               writeEvent .caller .memGmcSetting0 s.params.gmc,
               readEvent .caller .globalCon (s.draws + 1) s.regs,
               maskedWriteEvent .caller .globalCon 0x2#32 0x2#32],
            caller := { s.caller with old := regWord .globalCon s.regs, ret := .ok } })
    ∧ (s.clkCount = 0 →
      exec (.opConfigureLayer 0#32 address pitch format 0#32) s = .next (callerUnclocked .memCon s))

/-- R179, R100: `configure_layer` into an open batch records its six or seven writes and changes no register. -/
def Obligations.LayerBatched : Prop :=
  ∀ (address pitch format : Word) (es : List BatchEntry) (s : State), Quiet s →
    s.batchCapable = true → s.batch = .recording es →
    exec (.opConfigureLayer 0#32 address pitch format 1#32) s =
      .next
        { s with
          batch := .recording (es ++
            ([.write .memCon (memConWord s.params.hwCodes (translateFormat format))]
              ++ (if (translateFormat format).needsColorMatrix = true then
                  [.writeMasked .sizeCon0 0x00020000#32 0x00020000#32,
                   .writeMasked .sizeCon0 (bt601Word s.params) 0x00F00000#32]
                else [.writeMasked .sizeCon0 0x00000000#32 0x00020000#32])
              ++ [.write .memStartAddr address, .write .memSrcPitch (pitch &&& 0x0000FFFF#32),
                  .write .memGmcSetting0 s.params.gmc, .writeMasked .globalCon 0x2#32 0x2#32])),
          caller := { s.caller with ret := .ok } }

/-- R180: `clock_enable` by the caller takes the next answer placed in the state, or a free one. The form of the answer
is log entry 4 (DESIGN CHOICE). -/
def Obligations.ClockEnableCompletes : Prop :=
  ∀ (s : State) (ok : Bool), Quiet s →
    ok = (match s.clockAnswers with | a :: _ => a | [] => Config.freeAnswer s.draws) →
    exec .opClockEnable s =
      .next
        { s with
          clkCount := if ok = true then s.clkCount + 1 else s.clkCount,
          history := s.history ++ [.clockResult (if ok = true then none else some .clockAcquisitionFailure)],
          clockAnswers := s.clockAnswers.tail,
          draws := if s.clockAnswers = [] then s.draws + 1 else s.draws,
          caller := { s.caller with ret := if ok = true then .ok else .error .clockAcquisitionFailure } }

/-- R181: `clock_disable`; no register changes, and a count of 0 is refused. -/
def Obligations.ClockDisableCompletes : Prop :=
  ∀ s : State, Quiet s →
    exec .opClockDisable s =
      .next
        (if s.clkCount = 0 then callerRefused .clockUnderflow s
        else { s with clkCount := s.clkCount - 1, caller := { s.caller with ret := .ok } })

/-- R180, R240: in the interrupt context `clock_enable` is refused: only the mark and the context change. -/
def Obligations.ClockEnableRefusedInIrq : Prop :=
  ∀ (s : State) (rest : List Action), s.irq.todo = .clockEnable :: rest →
    stepThread .irq s =
      { s with refused := true, irq := { s.irq with todo := [], ret := .refused .clockEnableInIrq } }

/-- R182: the variant's list, in order; nothing else changes. -/
def Obligations.QueryFormatsCompletes : Prop :=
  ∀ s : State, Quiet s →
    exec .opQuerySupportedFormats s =
      .next { s with caller := { s.caller with ret := .formats s.variant.supportedFormats } }

/-- R183, R73: `batch_begin`. -/
def Obligations.BatchBeginCompletes : Prop :=
  ∀ s : State, Quiet s →
    exec .opBatchBegin s =
      .next
        (if s.batchCapable = false then callerRefused .batchNotCapable s
        else if s.batch ≠ .noBatch then callerRefused .overlappingBatch s
        else { s with batch := .recording [], caller := { s.caller with ret := .ok } })

/-- R184: `batch_submit`. -/
def Obligations.BatchSubmitCompletes : Prop :=
  ∀ s : State, Quiet s →
    exec .opBatchSubmit s =
      .next
        (match s.batch with
          | .recording es => { s with batch := .submitted es, caller := { s.caller with ret := .ok } }
          | _ => callerRefused .noOpenBatch s)

/-- R67, R215: whatever the other agents do in between, an operation of the caller has ended when its instruction has
been executed. The form of the schedule is log entry 11 (DESIGN CHOICE). -/
def Obligations.CallerOperationEnds : Prop :=
  ∀ (op : Operation) (s : State), (callerOperation op s).caller.todo = []

/-! ## The engine, the coprocessor, the interrupt handler -/

/-- R203, R34: an engine event sets status bits and changes no other field; where it is not enabled there is no step. EV
engine_event answers the next state with its bits set and its event appended, whenever the engine is enabled or events
while stopped are admitted; else the machine stops by name, since there is no step (log entry 17, DEDUCED). -/
def Obligations.EngineEventSetsStatus : Prop :=
  ∀ (bits : Sources) (s : State),
    exec (.evEngineEvent bits) s =
      if s.regs.engineEn = 1#1 ∨ s.params.eventsWhileStopped = true then
        .next
          { s with
            regs := { s.regs with intStatus := s.regs.intStatus ||| bits },
            history := s.history ++ [.engineEvent bits] }
      else .fault .engineEventNotEnabled

/-- R116, R185, R71, R72: with the clock on, or with no entry to apply, and entries that recording admits, a batch
execution applies every entry in order, a masked one over the register as it stands, and ends the batch. That no Access
event is emitted per entry is log entry 16 (DEDUCED). -/
def Obligations.BatchExecuteAppliesInOrder : Prop :=
  ∀ (es : List BatchEntry) (s : State), s.batch = .submitted es → BatchAdmitted s → 0 < s.clkCount ∨ es = [] →
    exec .evBatchExecute s =
      .next
        { s with
          regs := es.foldl entryEffect s.regs,
          batch := .noBatch,
          history := s.history ++ [.batchApplied es] }

/-- R185, R116: with the clock off and at least one entry, the first entry faults and no register changes. That the
batch then stays submitted is log entry 9 (DEDUCED). With no submitted batch there is no step: the machine stops by name
(log entry 17, DEDUCED). -/
def Obligations.BatchExecuteUnclockedOrNotEnabled : Prop :=
  ∀ (s : State),
    (∀ e es, s.batch = .submitted (e :: es) → s.clkCount = 0 →
      exec .evBatchExecute s =
        .next
          { s with
            faults := faultsWith
              (.unclockedAccess
                (regOffset s.params.offsets (match e with | .write r _ => r | .writeMasked r _ _ => r)))
              s.faults })
    ∧ ((∀ es, s.batch ≠ .submitted es) → exec .evBatchExecute s = .fault .batchExecuteNotEnabled)

/-- R206, R208: a handler run with no callback registered clears every status bit and returns NOT_HANDLED. -/
def Obligations.HandlerWithoutCallback : Prop :=
  ∀ s : State, HandlerQuiet s → 0 < s.clkCount → s.callback = none →
    exec .evIrqHandler s =
      .next
        { s with
          regs := { s.regs with intStatus := 0#6 },
          history := s.history ++ [writeEvent .irq .intStatus 0#32, .handlerReturn .notHandled],
          irq := { s.irq with todo := [], ret := .handler .notHandled } }

/-- R206, R207, R208, R212: a handler run with a callback clears every status bit, notifies once and runs the body.
Where nothing in the body faults it returns HANDLED last of all; where an access in it faults, the fault is recorded and
the run ends there with no return. With an empty body nothing else changes. That a refusal in the body ends its
operation only is log entry 10 (DEDUCED). -/
def Obligations.HandlerNotifies : Prop :=
  ∀ (s : State) (cb : Callback), HandlerQuiet s → 0 < s.clkCount → s.callback = some cb →
    (callbackBody s.params cb = [] →
      exec .evIrqHandler s =
        .next
          { s with
            regs := { s.regs with intStatus := 0#6 },
            history := s.history ++
              [writeEvent .irq .intStatus 0#32, .notify cb.ctx, .handlerReturn .handled],
            irq := { s.irq with todo := [], ret := .handler .handled } })
    ∧ ∃ t es, exec .evIrqHandler s = .next t ∧ t.phase = .idle ∧ t.regs.intStatus = 0#6
        ∧ (∀ e ∈ es, (∀ x, e ≠ .notify x) ∧ ∀ x, e ≠ .handlerReturn x)
        ∧ match bodyFault s.clkCount (callbackBody s.params cb) with
          | none =>
            t.irq.ret = .handler .handled ∧ t.faults = s.faults
              ∧ t.history = s.history ++ [writeEvent .irq .intStatus 0#32, .notify cb.ctx] ++ es
                  ++ [.handlerReturn .handled]
          | some r =>
            t.irq.ret = .faulted (.unclockedAccess (regOffset s.params.offsets r))
              ∧ t.faults = faultsWith (.unclockedAccess (regOffset s.params.offsets r)) s.faults
              ∧ t.history = s.history ++ [writeEvent .irq .intStatus 0#32, .notify cb.ctx] ++ es

/-- R206, R212: with the clock off a handler run faults at its status clear and returns nothing. -/
def Obligations.HandlerUnclocked : Prop :=
  ∀ s : State, HandlerQuiet s → s.clkCount = 0 →
    exec .evIrqHandler s =
      .next
        { s with
          faults := faultsWith (.unclockedAccess (regOffset s.params.offsets .intStatus)) s.faults,
          irq :=
            { s.irq with todo := [], ret := .faulted (.unclockedAccess (regOffset s.params.offsets .intStatus)) } }

/-- R204, R207, R209: a handler run that is executed ends, whatever its body and whatever the other agents do in
between, and leaves no run in progress. The form of the schedule is log entry 11 (DESIGN CHOICE). -/
def Obligations.HandlerRunEnds : Prop :=
  ∀ s : State, ∃ t, exec .evIrqHandler s = .next t ∧ t.phase = .idle

/-- R208, R206: with no other agent in between and the clock on, a handler run notifies exactly once when a callback is
registered, whatever its body does, and never when none is. That a refusal in the body does not end the run is log entry
10 (DEDUCED). -/
def Obligations.HandlerNotifiesOnce : Prop :=
  ∀ (s t : State), HandlerQuiet s → 0 < s.clkCount → exec .evIrqHandler s = .next t →
    t.history.filter (fun e => match e with | .notify _ => true | _ => false) =
      s.history.filter (fun e => match e with | .notify _ => true | _ => false)
        ++ (match s.callback with | some cb => [.notify cb.ctx] | none => [])

/-- R204, R209: while a handler run is in progress no other one starts. While a run is in progress, a delivery at an
interleaving point changes nothing (log entry 11, DESIGN CHOICE). -/
def Obligations.HandlerRunsDoNotOverlap : Prop :=
  ∀ (running : Option Context) (s : State), s.phase ≠ .idle → move running .deliver s = s

/-- R178, R239: a handler run that has read the slot invokes the old callback although it has been cleared since. -/
def Obligations.ClearedCallbackMayStillRun : Prop :=
  ∀ (cb : Callback) (s : State), s.phase = .readSlot → s.callback = some cb →
    (irqStep { irqStep s with callback := none }).history = s.history ++ [.notify cb.ctx]

/-- R201, R205: the interrupt line and the transitions of its two states. The line's form is the spec's decision D8. -/
def Obligations.IrqStateTransitions : Prop :=
  ∀ (g : Regs) (bits : Sources),
    (irqState g = .signaled ↔ ∃ x : Source, g.intEnable &&& sourceBit x ≠ 0#6 ∧ g.intStatus &&& sourceBit x ≠ 0#6)
      ∧ (bits &&& g.intEnable ≠ 0#6 → irqState (setStatus bits g) = .signaled)
      ∧ (g.intStatus &&& sourceBit .frameEnd ≠ 0#6 →
          irqState { g with intEnable := g.intEnable ||| sourceBit .frameEnd } = .signaled)
      ∧ irqState (clearStatus g) = .idle
      ∧ (g.intEnable = sourceBit .frameEnd →
          irqState { g with intEnable := g.intEnable &&& ~~~sourceBit .frameEnd } = .idle)

/-- R23, R202, R203, R43: whatever the step and whatever the other agents do in it, a status bit that is set after it
and was not before was raised by an engine event that the step appends to the history. -/
def Obligations.StatusBitsOnlyFromEngine : Prop :=
  ∀ s t : State, step s = .next t →
    ∃ es, t.history = s.history ++ es ∧
      ∀ x : Source, t.regs.intStatus &&& sourceBit x ≠ 0#6 →
        s.regs.intStatus &&& sourceBit x ≠ 0#6 ∨
          ∃ bits, Event.engineEvent bits ∈ es ∧ bits &&& sourceBit x ≠ 0#6

/-- R97, R63, R82: whatever its operand words, an illegal descriptor sets the refusal mark; one of class 0x1 to 0x5 also
records the fault of its offset, and that both happen is log entry 12 (DEDUCED). Nothing else changes. -/
def Obligations.IllegalSetsRefused : Prop :=
  ∀ (d : IllegalItem) (s : State), (Instr.illegal d).wellFormed s.params.offsets = true →
    exec (.illegal d) s =
      .next
        { s with
          refused := true,
          faults :=
            if 1 ≤ (d.descriptor.extractLsb' 12 4).toNat ∧ (d.descriptor.extractLsb' 12 4).toNat ≤ 5 then
              faultsWith (.undefinedRegister (d.descriptor.extractLsb' 0 12)) s.faults
            else s.faults }

/-! ## Interleaving and batches -/

/-- R69, R71, R236 (P4 of the spec): `start` against a batch that sets `MODE_MEMORY`. After its last transaction or
before its first, both bits are set; between the two, `MODE_MEMORY` is lost. The form of the schedule is log entry 11
(DESIGN CHOICE). -/
def Obligations.LostUpdateBetweenTransactions : Prop :=
  ∀ s : State, s.caller.todo = [] → 0 < s.clkCount → s.regs.engineEn = 0#1 → s.regs.modeMemory = 0#1 →
    s.batch = .submitted [.writeMasked .globalCon 0x2#32 0x2#32] →
    (∃ t, exec .opStart { s with between := [[], [.batchExecute]] } = .next t ∧
      t.regs = { s.regs with engineEn := 1#1, modeMemory := 1#1 } ∧ t.batch = .noBatch)
    ∧ (∃ t, exec .opStart { s with between := [[], [], [.batchExecute]] } = .next t ∧
      t.regs = { s.regs with engineEn := 1#1, modeMemory := 0#1 } ∧ t.batch = .noBatch)
    ∧ (∃ t u, exec .opStart { s with between := [] } = .next t ∧ exec .evBatchExecute t = .next u ∧
      u.regs = { s.regs with engineEn := 1#1, modeMemory := 1#1 } ∧ u.batch = .noBatch)

/-- R72, R241: a masked entry merges with the register as it stands at execution, not at recording. Bit positions and
offsets are the spec's general-knowledge defaults (log entry 1, PRESUMED). -/
def Obligations.MaskedEntryMergesLate : Prop :=
  ∀ (v w : Word) (s t u : State), Quiet s → 0 < s.clkCount →
    s.batch = .submitted [.writeMasked .sizeCon0 0x00020000#32 0x00020000#32] →
    exec (.wrmSizeCon0 v w) s = .next t → exec .evBatchExecute t = .next u →
      u.regs = { t.regs with matrixEnable := 1#1 }

/-! ## Encoding -/

/-- R80 to R84, R98: decoding the bytes of a well-formed instruction gives it back, with what stands after it, whatever
the ten offsets, so long as no two are the same (log entry 23, DESIGN CHOICE). The byte order is log entry 5 (DESIGN
CHOICE); the operand count of an illegal class and of an undefined event number is log entry 22 (DESIGN CHOICE). -/
def Obligations.DecodeEncode : Prop :=
  ∀ (o : Offsets) (i : Instr) (rest : List Byte), (registerOffsets o).Nodup → i.wellFormed o = true →
    decode o (encode o i ++ rest) = .item i rest

/-- R80 to R84, R97: what the decoder accepts is well formed, and is what the encoder writes. The byte order is log
entry 5 (DESIGN CHOICE); the operand count of an illegal class and of an undefined event number is log entry 22 (DESIGN
CHOICE). -/
def Obligations.EncodeDecode : Prop :=
  ∀ (o : Offsets) (i : Instr) (bs rest : List Byte), decode o bs = .item i rest →
    i.wellFormed o = true ∧ bs = encode o i ++ rest

/-- R80 to R84, R98: a few words of the spec's programs P1 to P3 and of the rows, at the default offsets. -/
def Obligations.SpecWordsDecode : Prop :=
  decodeTableWord 16 0x8009 = some .opClockEnable
    ∧ decodeTableWord 48 0x820001662040 = some (.wrFifoCon 0x82000166#32)
    ∧ decodeTableWord 80 0x00000FFF000007803014 = some (.wrmSizeCon0 0x780#32 0xFFF#32)
    ∧ decodeTableWord 48 0x000000149001 = some (.evEngineEvent 0b010100#6)
    ∧ decodeTableWord 16 0x1008 = some (.illegal ⟨0x1008#16, []⟩)
    ∧ decodeTableWord 48 0x80028002201C = some (.illegal ⟨0x201C#16, [0x80028002#32]⟩)

/-! ## The whole machine -/

/-- R2, R80: when the stream begins with an item, a step is that instruction's `exec` past the item's bytes; with an
empty stream a step is what the other agents do at one interleaving point (log entry 15, DESIGN CHOICE). -/
def Obligations.StepRunsDecoded : Prop :=
  ∀ (s : State) (i : Instr) (rest : List Byte),
    (decode s.params.offsets s.stream = .item i rest → step s = exec i { s with stream := rest })
      ∧ (s.stream = [] → step s = .next (interleave none s))

/-- R35, R36, R37, R42, R43: whatever the step, the fixed data of the instance is kept, the history is only appended to,
no fault is removed and the refusal mark is not cleared. -/
def Obligations.StepExtends : Prop := ∀ s t : State, step s = .next t → Extends s t

/-- R40, R42, R66, R207: the invariant is kept by every step. -/
def Obligations.StepKeepsInvariant : Prop := ∀ s t : State, Inv s → step s = .next t → Inv t

/-- The invariant holds at reset, and of every instance that bind makes. State.reset's own values are log entries 2 and
6 (DESIGN CHOICE). -/
def Obligations.InvariantAtBind : Prop :=
  Inv State.reset ∧ ∀ (i : BindInput) (s : State) (w : Option CtrlError), bindInstance i = .bound s w → Inv s

/-- R231, R232: what bind leaves. The fields R231 leaves unspecified are the input's draw. An override that cannot be
parsed gives 0 (decision D16); the form of the input is log entry 19 (DESIGN CHOICE). -/
def Obligations.BindLeaves : Prop :=
  ∀ (i : BindInput) (s : State) (w : Option CtrlError), bindInstance i = .bound s w →
    s.regs = { i.drawn with intEnable := i.drawn.intEnable &&& 0b000100#6 }
      ∧ s.callback = none ∧ s.clkCount = 0 ∧ s.batch = .noBatch ∧ s.faults = [] ∧ s.refused = false ∧ s.history = []
      ∧ s.variant = i.variant ∧ s.batchCapable = i.client
      ∧ s.fifoOverride = (match i.overrideField with | .value v => v | _ => 0#32)

/-- R211, R230: when bind fails, and when it warns. A bind that fails surfaces no warning beside its error (log entry
24, DESIGN CHOICE). The instance after invalid configuration data is log entry 19 (DESIGN CHOICE). -/
def Obligations.BindErrors : Prop :=
  ∀ i : BindInput,
    ((i.registerSpace = false ∨ i.interruptLine = false) → bindInstance i = .failed .resourceUnavailable)
      ∧ (i.registerSpace = true → i.interruptLine = true →
          ∃ s, bindInstance i = .bound s
            (if i.variantParsed = false ∨ i.overrideField = .unparsable then some .invalidConfigurationData else none))
end

