-- ==== Sys2Proof/Laws/Operands.lean ====
section
/-! SUPPORT. Registers, offsets and words: what a stored word reads back as, which fields a write leaves alone, and the
round trip of bytes. -/

namespace Sys2Proof.Machine

/-- At the offset of a register there is a register. -/
@[simp] theorem isSome_regOfOffset_regOffset (o : Offsets) (r : Reg) : (regOfOffset o (regOffset o r)).isSome = true := by
  cases r <;> simp only [regOfOffset, regOffset] <;> repeat' split
  all_goals first | rfl | (exfalso; simp_all)

/-- Where the offsets are pairwise distinct, it is that register. -/
theorem regOfOffset_regOffset {o : Offsets} (h : (registerOffsets o).Nodup) (r : Reg) :
    regOfOffset o (regOffset o r) = some r := by
  simp only [registerOffsets, List.nodup_cons, List.mem_cons, List.not_mem_nil, or_false, not_or] at h
  obtain ⟨h0, h1, h2, h3, h4, h5, h6, h7, h8, -⟩ := h
  cases r <;> simp only [regOfOffset, regOffset, eq_comm, if_true, if_false, *]

/-- There is a register at an offset exactly where it is one of the ten. -/
theorem isSome_regOfOffset (o : Offsets) (off : Offset) :
    (regOfOffset o off).isSome = (registerOffsets o).contains off := by
  unfold regOfOffset
  repeat' split
  all_goals simp_all [registerOffsets]

/-- An offset that has a register is that register's offset. -/
theorem regOffset_of_regOfOffset {o : Offsets} {off : Offset} {r : Reg} (h : regOfOffset o off = some r) :
    off = regOffset o r := by
  unfold regOfOffset at h
  repeat' split at h
  all_goals first
    | (cases h; assumption)
    | cases h

/-- At a register's own offset only the clock is left to check (R117). -/
@[simp] theorem checkImmediate_regOffset {o : Offsets} (r : Reg) (s : State) (h : s.params.offsets = o) :
    checkImmediate (regOffset o r) s = if s.clkCount = 0 then some (.unclockedAccess (regOffset o r)) else none := by
  subst h
  have hs := isSome_regOfOffset_regOffset s.params.offsets r
  cases hr : regOfOffset s.params.offsets (regOffset s.params.offsets r) with
  | none => simp [hr] at hs
  | some x => simp [checkImmediate, hr]

/-- A stored word reads back in the named fields (R33, R66). -/
theorem regWord_storeFields (r : Reg) (v : Word) (g : Regs) :
    regWord r (storeFields r v g) = v &&& ~~~unnamedMask r := by
  cases r <;> simp only [regWord, unnamedMask, storeFields] <;> apply BitVec.eq_of_getLsbD_eq <;> intro i hi <;>
    interval_cases i <;> simp [placed]

/-- A write leaves every other register alone (R66). -/
theorem regWord_storeFields_of_ne {r r' : Reg} (h : r' ≠ r) (v : Word) (g : Regs) :
    regWord r' (storeFields r v g) = regWord r' g := by
  cases r <;> cases r' <;> first | exact absurd rfl h | rfl

/-- No named field stands in an unnamed position (R33). -/
theorem regWord_and_unnamedMask (r : Reg) (g : Regs) : regWord r g &&& unnamedMask r = 0#32 := by
  cases r <;> simp only [regWord, unnamedMask] <;> apply BitVec.eq_of_getLsbD_eq <;> intro i hi <;>
    interval_cases i <;> simp [placed]

/-- The bytes of a word make the word again. -/
theorem takeWord_wordBytes (w : Word) (rest : List Byte) : takeWord (wordBytes w ++ rest) = some (w, rest) := by
  have : wordOfBytes (w.extractLsb' 0 8) (w.extractLsb' 8 8) (w.extractLsb' 16 8) (w.extractLsb' 24 8) = w := by
    unfold wordOfBytes
    apply BitVec.eq_of_getLsbD_eq
    intro i hi
    interval_cases i <;> simp
  simp [wordBytes, takeWord, this]

/-- The bytes of a descriptor make the descriptor again. -/
theorem halfOfBytes_halfBytes (d : Half) : halfOfBytes (d.extractLsb' 0 8) (d.extractLsb' 8 8) = d := by
  unfold halfOfBytes
  apply BitVec.eq_of_getLsbD_eq
  intro i hi
  interval_cases i <;> simp

end Sys2Proof.Machine
end

