-- ==== Sys2Proof/Laws/State.lean ====
section
/-! SUPPORT. One lemma per field for each shared update of State, so that no later proof unfolds a record update. -/

namespace Sys2Proof.Machine

@[simp] theorem emit_regs (e : Event) (s : State) : (emit e s).regs = s.regs := rfl
@[simp] theorem emit_variant (e : Event) (s : State) : (emit e s).variant = s.variant := rfl
@[simp] theorem emit_fifoOverride (e : Event) (s : State) : (emit e s).fifoOverride = s.fifoOverride := rfl
@[simp] theorem emit_batchCapable (e : Event) (s : State) : (emit e s).batchCapable = s.batchCapable := rfl
@[simp] theorem emit_callback (e : Event) (s : State) : (emit e s).callback = s.callback := rfl
@[simp] theorem emit_clkCount (e : Event) (s : State) : (emit e s).clkCount = s.clkCount := rfl
@[simp] theorem emit_batch (e : Event) (s : State) : (emit e s).batch = s.batch := rfl
@[simp] theorem emit_faults (e : Event) (s : State) : (emit e s).faults = s.faults := rfl
@[simp] theorem emit_refused (e : Event) (s : State) : (emit e s).refused = s.refused := rfl
@[simp] theorem emit_history (e : Event) (s : State) : (emit e s).history = s.history ++ [e] := rfl
@[simp] theorem emit_params (e : Event) (s : State) : (emit e s).params = s.params := rfl
@[simp] theorem emit_caller (e : Event) (s : State) : (emit e s).caller = s.caller := rfl
@[simp] theorem emit_irq (e : Event) (s : State) : (emit e s).irq = s.irq := rfl
@[simp] theorem emit_phase (e : Event) (s : State) : (emit e s).phase = s.phase := rfl
@[simp] theorem emit_between (e : Event) (s : State) : (emit e s).between = s.between := rfl
@[simp] theorem emit_clockAnswers (e : Event) (s : State) : (emit e s).clockAnswers = s.clockAnswers := rfl
@[simp] theorem emit_draws (e : Event) (s : State) : (emit e s).draws = s.draws := rfl
@[simp] theorem emit_stream (e : Event) (s : State) : (emit e s).stream = s.stream := rfl

@[simp] theorem recordFault_regs (f : ModelFault) (s : State) : (recordFault f s).regs = s.regs := rfl
@[simp] theorem recordFault_variant (f : ModelFault) (s : State) : (recordFault f s).variant = s.variant := rfl
@[simp] theorem recordFault_fifoOverride (f : ModelFault) (s : State) : (recordFault f s).fifoOverride = s.fifoOverride := rfl
@[simp] theorem recordFault_batchCapable (f : ModelFault) (s : State) : (recordFault f s).batchCapable = s.batchCapable := rfl
@[simp] theorem recordFault_callback (f : ModelFault) (s : State) : (recordFault f s).callback = s.callback := rfl
@[simp] theorem recordFault_clkCount (f : ModelFault) (s : State) : (recordFault f s).clkCount = s.clkCount := rfl
@[simp] theorem recordFault_batch (f : ModelFault) (s : State) : (recordFault f s).batch = s.batch := rfl
@[simp] theorem recordFault_faults (f : ModelFault) (s : State) : (recordFault f s).faults = faultsWith f s.faults := rfl
@[simp] theorem recordFault_refused (f : ModelFault) (s : State) : (recordFault f s).refused = s.refused := rfl
@[simp] theorem recordFault_history (f : ModelFault) (s : State) : (recordFault f s).history = s.history := rfl
@[simp] theorem recordFault_params (f : ModelFault) (s : State) : (recordFault f s).params = s.params := rfl
@[simp] theorem recordFault_caller (f : ModelFault) (s : State) : (recordFault f s).caller = s.caller := rfl
@[simp] theorem recordFault_irq (f : ModelFault) (s : State) : (recordFault f s).irq = s.irq := rfl
@[simp] theorem recordFault_phase (f : ModelFault) (s : State) : (recordFault f s).phase = s.phase := rfl
@[simp] theorem recordFault_between (f : ModelFault) (s : State) : (recordFault f s).between = s.between := rfl
@[simp] theorem recordFault_clockAnswers (f : ModelFault) (s : State) : (recordFault f s).clockAnswers = s.clockAnswers := rfl
@[simp] theorem recordFault_draws (f : ModelFault) (s : State) : (recordFault f s).draws = s.draws := rfl
@[simp] theorem recordFault_stream (f : ModelFault) (s : State) : (recordFault f s).stream = s.stream := rfl

@[simp] theorem markRefused_regs (s : State) : (markRefused s).regs = s.regs := rfl
@[simp] theorem markRefused_variant (s : State) : (markRefused s).variant = s.variant := rfl
@[simp] theorem markRefused_fifoOverride (s : State) : (markRefused s).fifoOverride = s.fifoOverride := rfl
@[simp] theorem markRefused_batchCapable (s : State) : (markRefused s).batchCapable = s.batchCapable := rfl
@[simp] theorem markRefused_callback (s : State) : (markRefused s).callback = s.callback := rfl
@[simp] theorem markRefused_clkCount (s : State) : (markRefused s).clkCount = s.clkCount := rfl
@[simp] theorem markRefused_batch (s : State) : (markRefused s).batch = s.batch := rfl
@[simp] theorem markRefused_faults (s : State) : (markRefused s).faults = s.faults := rfl
@[simp] theorem markRefused_refused (s : State) : (markRefused s).refused = true := rfl
@[simp] theorem markRefused_history (s : State) : (markRefused s).history = s.history := rfl
@[simp] theorem markRefused_params (s : State) : (markRefused s).params = s.params := rfl
@[simp] theorem markRefused_caller (s : State) : (markRefused s).caller = s.caller := rfl
@[simp] theorem markRefused_irq (s : State) : (markRefused s).irq = s.irq := rfl
@[simp] theorem markRefused_phase (s : State) : (markRefused s).phase = s.phase := rfl
@[simp] theorem markRefused_between (s : State) : (markRefused s).between = s.between := rfl
@[simp] theorem markRefused_clockAnswers (s : State) : (markRefused s).clockAnswers = s.clockAnswers := rfl
@[simp] theorem markRefused_draws (s : State) : (markRefused s).draws = s.draws := rfl
@[simp] theorem markRefused_stream (s : State) : (markRefused s).stream = s.stream := rfl

@[simp] theorem afterRead_regs (c : Context) (r : Reg) (s : State) : (afterRead c r s).regs = s.regs := rfl
@[simp] theorem afterRead_variant (c : Context) (r : Reg) (s : State) : (afterRead c r s).variant = s.variant := rfl
@[simp] theorem afterRead_fifoOverride (c : Context) (r : Reg) (s : State) : (afterRead c r s).fifoOverride = s.fifoOverride := rfl
@[simp] theorem afterRead_batchCapable (c : Context) (r : Reg) (s : State) : (afterRead c r s).batchCapable = s.batchCapable := rfl
@[simp] theorem afterRead_callback (c : Context) (r : Reg) (s : State) : (afterRead c r s).callback = s.callback := rfl
@[simp] theorem afterRead_clkCount (c : Context) (r : Reg) (s : State) : (afterRead c r s).clkCount = s.clkCount := rfl
@[simp] theorem afterRead_batch (c : Context) (r : Reg) (s : State) : (afterRead c r s).batch = s.batch := rfl
@[simp] theorem afterRead_faults (c : Context) (r : Reg) (s : State) : (afterRead c r s).faults = s.faults := rfl
@[simp] theorem afterRead_refused (c : Context) (r : Reg) (s : State) : (afterRead c r s).refused = s.refused := rfl
@[simp] theorem afterRead_history (c : Context) (r : Reg) (s : State) : (afterRead c r s).history = s.history ++ [.access c.agent .rd r none none (some (readValue r s.draws s.regs))] := rfl
@[simp] theorem afterRead_params (c : Context) (r : Reg) (s : State) : (afterRead c r s).params = s.params := rfl
@[simp] theorem afterRead_caller (c : Context) (r : Reg) (s : State) : (afterRead c r s).caller = s.caller := rfl
@[simp] theorem afterRead_irq (c : Context) (r : Reg) (s : State) : (afterRead c r s).irq = s.irq := rfl
@[simp] theorem afterRead_phase (c : Context) (r : Reg) (s : State) : (afterRead c r s).phase = s.phase := rfl
@[simp] theorem afterRead_between (c : Context) (r : Reg) (s : State) : (afterRead c r s).between = s.between := rfl
@[simp] theorem afterRead_clockAnswers (c : Context) (r : Reg) (s : State) : (afterRead c r s).clockAnswers = s.clockAnswers := rfl
@[simp] theorem afterRead_draws (c : Context) (r : Reg) (s : State) : (afterRead c r s).draws = s.draws + 1 := rfl
@[simp] theorem afterRead_stream (c : Context) (r : Reg) (s : State) : (afterRead c r s).stream = s.stream := rfl

@[simp] theorem raiseStatus_regs (bits : Sources) (s : State) : (raiseStatus bits s).regs = setStatus bits s.regs := rfl
@[simp] theorem raiseStatus_variant (bits : Sources) (s : State) : (raiseStatus bits s).variant = s.variant := rfl
@[simp] theorem raiseStatus_fifoOverride (bits : Sources) (s : State) : (raiseStatus bits s).fifoOverride = s.fifoOverride := rfl
@[simp] theorem raiseStatus_batchCapable (bits : Sources) (s : State) : (raiseStatus bits s).batchCapable = s.batchCapable := rfl
@[simp] theorem raiseStatus_callback (bits : Sources) (s : State) : (raiseStatus bits s).callback = s.callback := rfl
@[simp] theorem raiseStatus_clkCount (bits : Sources) (s : State) : (raiseStatus bits s).clkCount = s.clkCount := rfl
@[simp] theorem raiseStatus_batch (bits : Sources) (s : State) : (raiseStatus bits s).batch = s.batch := rfl
@[simp] theorem raiseStatus_faults (bits : Sources) (s : State) : (raiseStatus bits s).faults = s.faults := rfl
@[simp] theorem raiseStatus_refused (bits : Sources) (s : State) : (raiseStatus bits s).refused = s.refused := rfl
@[simp] theorem raiseStatus_history (bits : Sources) (s : State) : (raiseStatus bits s).history = s.history ++ [.engineEvent bits] := rfl
@[simp] theorem raiseStatus_params (bits : Sources) (s : State) : (raiseStatus bits s).params = s.params := rfl
@[simp] theorem raiseStatus_caller (bits : Sources) (s : State) : (raiseStatus bits s).caller = s.caller := rfl
@[simp] theorem raiseStatus_irq (bits : Sources) (s : State) : (raiseStatus bits s).irq = s.irq := rfl
@[simp] theorem raiseStatus_phase (bits : Sources) (s : State) : (raiseStatus bits s).phase = s.phase := rfl
@[simp] theorem raiseStatus_between (bits : Sources) (s : State) : (raiseStatus bits s).between = s.between := rfl
@[simp] theorem raiseStatus_clockAnswers (bits : Sources) (s : State) : (raiseStatus bits s).clockAnswers = s.clockAnswers := rfl
@[simp] theorem raiseStatus_draws (bits : Sources) (s : State) : (raiseStatus bits s).draws = s.draws := rfl
@[simp] theorem raiseStatus_stream (bits : Sources) (s : State) : (raiseStatus bits s).stream = s.stream := rfl

@[simp] theorem deliver_regs (s : State) : (deliver s).regs = s.regs := rfl
@[simp] theorem deliver_variant (s : State) : (deliver s).variant = s.variant := rfl
@[simp] theorem deliver_fifoOverride (s : State) : (deliver s).fifoOverride = s.fifoOverride := rfl
@[simp] theorem deliver_batchCapable (s : State) : (deliver s).batchCapable = s.batchCapable := rfl
@[simp] theorem deliver_callback (s : State) : (deliver s).callback = s.callback := rfl
@[simp] theorem deliver_clkCount (s : State) : (deliver s).clkCount = s.clkCount := rfl
@[simp] theorem deliver_batch (s : State) : (deliver s).batch = s.batch := rfl
@[simp] theorem deliver_faults (s : State) : (deliver s).faults = s.faults := rfl
@[simp] theorem deliver_refused (s : State) : (deliver s).refused = s.refused := rfl
@[simp] theorem deliver_history (s : State) : (deliver s).history = s.history := rfl
@[simp] theorem deliver_params (s : State) : (deliver s).params = s.params := rfl
@[simp] theorem deliver_caller (s : State) : (deliver s).caller = s.caller := rfl
@[simp] theorem deliver_irq (s : State) : (deliver s).irq = { s.irq with todo := [], ret := .nothing } := rfl
@[simp] theorem deliver_phase (s : State) : (deliver s).phase = .clear := rfl
@[simp] theorem deliver_between (s : State) : (deliver s).between = s.between := rfl
@[simp] theorem deliver_clockAnswers (s : State) : (deliver s).clockAnswers = s.clockAnswers := rfl
@[simp] theorem deliver_draws (s : State) : (deliver s).draws = s.draws := rfl
@[simp] theorem deliver_stream (s : State) : (deliver s).stream = s.stream := rfl

@[simp] theorem handlerReturn_regs (x : HandlerResult) (s : State) : (handlerReturn x s).regs = s.regs := rfl
@[simp] theorem handlerReturn_variant (x : HandlerResult) (s : State) : (handlerReturn x s).variant = s.variant := rfl
@[simp] theorem handlerReturn_fifoOverride (x : HandlerResult) (s : State) : (handlerReturn x s).fifoOverride = s.fifoOverride := rfl
@[simp] theorem handlerReturn_batchCapable (x : HandlerResult) (s : State) : (handlerReturn x s).batchCapable = s.batchCapable := rfl
@[simp] theorem handlerReturn_callback (x : HandlerResult) (s : State) : (handlerReturn x s).callback = s.callback := rfl
@[simp] theorem handlerReturn_clkCount (x : HandlerResult) (s : State) : (handlerReturn x s).clkCount = s.clkCount := rfl
@[simp] theorem handlerReturn_batch (x : HandlerResult) (s : State) : (handlerReturn x s).batch = s.batch := rfl
@[simp] theorem handlerReturn_faults (x : HandlerResult) (s : State) : (handlerReturn x s).faults = s.faults := rfl
@[simp] theorem handlerReturn_refused (x : HandlerResult) (s : State) : (handlerReturn x s).refused = s.refused := rfl
@[simp] theorem handlerReturn_history (x : HandlerResult) (s : State) : (handlerReturn x s).history = s.history ++ [.handlerReturn x] := rfl
@[simp] theorem handlerReturn_params (x : HandlerResult) (s : State) : (handlerReturn x s).params = s.params := rfl
@[simp] theorem handlerReturn_caller (x : HandlerResult) (s : State) : (handlerReturn x s).caller = s.caller := rfl
@[simp] theorem handlerReturn_irq (x : HandlerResult) (s : State) : (handlerReturn x s).irq = { s.irq with todo := [], ret := .handler x } := rfl
@[simp] theorem handlerReturn_phase (x : HandlerResult) (s : State) : (handlerReturn x s).phase = .idle := rfl
@[simp] theorem handlerReturn_between (x : HandlerResult) (s : State) : (handlerReturn x s).between = s.between := rfl
@[simp] theorem handlerReturn_clockAnswers (x : HandlerResult) (s : State) : (handlerReturn x s).clockAnswers = s.clockAnswers := rfl
@[simp] theorem handlerReturn_draws (x : HandlerResult) (s : State) : (handlerReturn x s).draws = s.draws := rfl
@[simp] theorem handlerReturn_stream (x : HandlerResult) (s : State) : (handlerReturn x s).stream = s.stream := rfl

@[simp] theorem setThread_regs (c : Context) (t : Thread) (s : State) : (setThread c t s).regs = s.regs := by cases c <;> rfl
@[simp] theorem setThread_variant (c : Context) (t : Thread) (s : State) : (setThread c t s).variant = s.variant := by cases c <;> rfl
@[simp] theorem setThread_fifoOverride (c : Context) (t : Thread) (s : State) : (setThread c t s).fifoOverride = s.fifoOverride := by cases c <;> rfl
@[simp] theorem setThread_batchCapable (c : Context) (t : Thread) (s : State) : (setThread c t s).batchCapable = s.batchCapable := by cases c <;> rfl
@[simp] theorem setThread_callback (c : Context) (t : Thread) (s : State) : (setThread c t s).callback = s.callback := by cases c <;> rfl
@[simp] theorem setThread_clkCount (c : Context) (t : Thread) (s : State) : (setThread c t s).clkCount = s.clkCount := by cases c <;> rfl
@[simp] theorem setThread_batch (c : Context) (t : Thread) (s : State) : (setThread c t s).batch = s.batch := by cases c <;> rfl
@[simp] theorem setThread_faults (c : Context) (t : Thread) (s : State) : (setThread c t s).faults = s.faults := by cases c <;> rfl
@[simp] theorem setThread_refused (c : Context) (t : Thread) (s : State) : (setThread c t s).refused = s.refused := by cases c <;> rfl
@[simp] theorem setThread_history (c : Context) (t : Thread) (s : State) : (setThread c t s).history = s.history := by cases c <;> rfl
@[simp] theorem setThread_params (c : Context) (t : Thread) (s : State) : (setThread c t s).params = s.params := by cases c <;> rfl
@[simp] theorem setThread_phase (c : Context) (t : Thread) (s : State) : (setThread c t s).phase = s.phase := by cases c <;> rfl
@[simp] theorem setThread_between (c : Context) (t : Thread) (s : State) : (setThread c t s).between = s.between := by cases c <;> rfl
@[simp] theorem setThread_clockAnswers (c : Context) (t : Thread) (s : State) : (setThread c t s).clockAnswers = s.clockAnswers := by cases c <;> rfl
@[simp] theorem setThread_draws (c : Context) (t : Thread) (s : State) : (setThread c t s).draws = s.draws := by cases c <;> rfl
@[simp] theorem setThread_stream (c : Context) (t : Thread) (s : State) : (setThread c t s).stream = s.stream := by cases c <;> rfl

@[simp] theorem endOperation_regs (c : Context) (ret : Return) (s : State) : (endOperation c ret s).regs = s.regs := by cases c <;> rfl
@[simp] theorem endOperation_variant (c : Context) (ret : Return) (s : State) : (endOperation c ret s).variant = s.variant := by cases c <;> rfl
@[simp] theorem endOperation_fifoOverride (c : Context) (ret : Return) (s : State) : (endOperation c ret s).fifoOverride = s.fifoOverride := by cases c <;> rfl
@[simp] theorem endOperation_batchCapable (c : Context) (ret : Return) (s : State) : (endOperation c ret s).batchCapable = s.batchCapable := by cases c <;> rfl
@[simp] theorem endOperation_callback (c : Context) (ret : Return) (s : State) : (endOperation c ret s).callback = s.callback := by cases c <;> rfl
@[simp] theorem endOperation_clkCount (c : Context) (ret : Return) (s : State) : (endOperation c ret s).clkCount = s.clkCount := by cases c <;> rfl
@[simp] theorem endOperation_batch (c : Context) (ret : Return) (s : State) : (endOperation c ret s).batch = s.batch := by cases c <;> rfl
@[simp] theorem endOperation_faults (c : Context) (ret : Return) (s : State) : (endOperation c ret s).faults = s.faults := by cases c <;> rfl
@[simp] theorem endOperation_refused (c : Context) (ret : Return) (s : State) : (endOperation c ret s).refused = s.refused := by cases c <;> rfl
@[simp] theorem endOperation_history (c : Context) (ret : Return) (s : State) : (endOperation c ret s).history = s.history := by cases c <;> rfl
@[simp] theorem endOperation_params (c : Context) (ret : Return) (s : State) : (endOperation c ret s).params = s.params := by cases c <;> rfl
@[simp] theorem endOperation_phase (c : Context) (ret : Return) (s : State) : (endOperation c ret s).phase = s.phase := by cases c <;> rfl
@[simp] theorem endOperation_between (c : Context) (ret : Return) (s : State) : (endOperation c ret s).between = s.between := by cases c <;> rfl
@[simp] theorem endOperation_clockAnswers (c : Context) (ret : Return) (s : State) : (endOperation c ret s).clockAnswers = s.clockAnswers := by cases c <;> rfl
@[simp] theorem endOperation_draws (c : Context) (ret : Return) (s : State) : (endOperation c ret s).draws = s.draws := by cases c <;> rfl
@[simp] theorem endOperation_stream (c : Context) (ret : Return) (s : State) : (endOperation c ret s).stream = s.stream := by cases c <;> rfl

@[simp] theorem refuseOperation_regs (c : Context) (why : SpecRefusal) (s : State) : (refuseOperation c why s).regs = s.regs := by cases c <;> rfl
@[simp] theorem refuseOperation_variant (c : Context) (why : SpecRefusal) (s : State) : (refuseOperation c why s).variant = s.variant := by cases c <;> rfl
@[simp] theorem refuseOperation_fifoOverride (c : Context) (why : SpecRefusal) (s : State) : (refuseOperation c why s).fifoOverride = s.fifoOverride := by cases c <;> rfl
@[simp] theorem refuseOperation_batchCapable (c : Context) (why : SpecRefusal) (s : State) : (refuseOperation c why s).batchCapable = s.batchCapable := by cases c <;> rfl
@[simp] theorem refuseOperation_callback (c : Context) (why : SpecRefusal) (s : State) : (refuseOperation c why s).callback = s.callback := by cases c <;> rfl
@[simp] theorem refuseOperation_clkCount (c : Context) (why : SpecRefusal) (s : State) : (refuseOperation c why s).clkCount = s.clkCount := by cases c <;> rfl
@[simp] theorem refuseOperation_batch (c : Context) (why : SpecRefusal) (s : State) : (refuseOperation c why s).batch = s.batch := by cases c <;> rfl
@[simp] theorem refuseOperation_faults (c : Context) (why : SpecRefusal) (s : State) : (refuseOperation c why s).faults = s.faults := by cases c <;> rfl
@[simp] theorem refuseOperation_refused (c : Context) (why : SpecRefusal) (s : State) : (refuseOperation c why s).refused = true := by cases c <;> rfl
@[simp] theorem refuseOperation_history (c : Context) (why : SpecRefusal) (s : State) : (refuseOperation c why s).history = s.history := by cases c <;> rfl
@[simp] theorem refuseOperation_params (c : Context) (why : SpecRefusal) (s : State) : (refuseOperation c why s).params = s.params := by cases c <;> rfl
@[simp] theorem refuseOperation_phase (c : Context) (why : SpecRefusal) (s : State) : (refuseOperation c why s).phase = s.phase := by cases c <;> rfl
@[simp] theorem refuseOperation_between (c : Context) (why : SpecRefusal) (s : State) : (refuseOperation c why s).between = s.between := by cases c <;> rfl
@[simp] theorem refuseOperation_clockAnswers (c : Context) (why : SpecRefusal) (s : State) : (refuseOperation c why s).clockAnswers = s.clockAnswers := by cases c <;> rfl
@[simp] theorem refuseOperation_draws (c : Context) (why : SpecRefusal) (s : State) : (refuseOperation c why s).draws = s.draws := by cases c <;> rfl
@[simp] theorem refuseOperation_stream (c : Context) (why : SpecRefusal) (s : State) : (refuseOperation c why s).stream = s.stream := by cases c <;> rfl

@[simp] theorem faultOperation_regs (c : Context) (f : ModelFault) (s : State) : (faultOperation c f s).regs = s.regs := by cases c <;> rfl
@[simp] theorem faultOperation_variant (c : Context) (f : ModelFault) (s : State) : (faultOperation c f s).variant = s.variant := by cases c <;> rfl
@[simp] theorem faultOperation_fifoOverride (c : Context) (f : ModelFault) (s : State) : (faultOperation c f s).fifoOverride = s.fifoOverride := by cases c <;> rfl
@[simp] theorem faultOperation_batchCapable (c : Context) (f : ModelFault) (s : State) : (faultOperation c f s).batchCapable = s.batchCapable := by cases c <;> rfl
@[simp] theorem faultOperation_callback (c : Context) (f : ModelFault) (s : State) : (faultOperation c f s).callback = s.callback := by cases c <;> rfl
@[simp] theorem faultOperation_clkCount (c : Context) (f : ModelFault) (s : State) : (faultOperation c f s).clkCount = s.clkCount := by cases c <;> rfl
@[simp] theorem faultOperation_batch (c : Context) (f : ModelFault) (s : State) : (faultOperation c f s).batch = s.batch := by cases c <;> rfl
@[simp] theorem faultOperation_faults (c : Context) (f : ModelFault) (s : State) : (faultOperation c f s).faults = faultsWith f s.faults := by cases c <;> rfl
@[simp] theorem faultOperation_refused (c : Context) (f : ModelFault) (s : State) : (faultOperation c f s).refused = s.refused := by cases c <;> rfl
@[simp] theorem faultOperation_history (c : Context) (f : ModelFault) (s : State) : (faultOperation c f s).history = s.history := by cases c <;> rfl
@[simp] theorem faultOperation_params (c : Context) (f : ModelFault) (s : State) : (faultOperation c f s).params = s.params := by cases c <;> rfl
@[simp] theorem faultOperation_phase (c : Context) (f : ModelFault) (s : State) : (faultOperation c f s).phase = s.phase := by cases c <;> rfl
@[simp] theorem faultOperation_between (c : Context) (f : ModelFault) (s : State) : (faultOperation c f s).between = s.between := by cases c <;> rfl
@[simp] theorem faultOperation_clockAnswers (c : Context) (f : ModelFault) (s : State) : (faultOperation c f s).clockAnswers = s.clockAnswers := by cases c <;> rfl
@[simp] theorem faultOperation_draws (c : Context) (f : ModelFault) (s : State) : (faultOperation c f s).draws = s.draws := by cases c <;> rfl
@[simp] theorem faultOperation_stream (c : Context) (f : ModelFault) (s : State) : (faultOperation c f s).stream = s.stream := by cases c <;> rfl

@[simp] theorem setThread_caller_caller (t : Thread) (s : State) : (setThread .caller t s).caller = t := rfl
@[simp] theorem setThread_caller_irq (t : Thread) (s : State) : (setThread .caller t s).irq = s.irq := rfl
@[simp] theorem thread_caller (s : State) : thread .caller s = s.caller := rfl
@[simp] theorem endOperation_caller_caller (ret : Return) (s : State) :
    (endOperation .caller ret s).caller = { s.caller with todo := [], ret := ret } := rfl
@[simp] theorem endOperation_caller_irq (ret : Return) (s : State) : (endOperation .caller ret s).irq = s.irq := rfl
@[simp] theorem refuseOperation_caller_caller (why : SpecRefusal) (s : State) :
    (refuseOperation .caller why s).caller = { s.caller with todo := [], ret := .refused why } := rfl
@[simp] theorem refuseOperation_caller_irq (why : SpecRefusal) (s : State) :
    (refuseOperation .caller why s).irq = s.irq := rfl
@[simp] theorem faultOperation_caller_caller (f : ModelFault) (s : State) :
    (faultOperation .caller f s).caller = { s.caller with todo := [], ret := .faulted f } := rfl
@[simp] theorem faultOperation_caller_irq (f : ModelFault) (s : State) :
    (faultOperation .caller f s).irq = s.irq := rfl

@[simp] theorem setThread_irq_irq (t : Thread) (s : State) : (setThread .irq t s).irq = t := rfl
@[simp] theorem setThread_irq_caller (t : Thread) (s : State) : (setThread .irq t s).caller = s.caller := rfl
@[simp] theorem thread_irq (s : State) : thread .irq s = s.irq := rfl
@[simp] theorem endOperation_irq_irq (ret : Return) (s : State) :
    (endOperation .irq ret s).irq = { s.irq with todo := [], ret := ret } := rfl
@[simp] theorem endOperation_irq_caller (ret : Return) (s : State) : (endOperation .irq ret s).caller = s.caller := rfl
@[simp] theorem refuseOperation_irq_irq (why : SpecRefusal) (s : State) :
    (refuseOperation .irq why s).irq = { s.irq with todo := [], ret := .refused why } := rfl
@[simp] theorem refuseOperation_irq_caller (why : SpecRefusal) (s : State) :
    (refuseOperation .irq why s).caller = s.caller := rfl
@[simp] theorem faultOperation_irq_irq (f : ModelFault) (s : State) :
    (faultOperation .irq f s).irq = { s.irq with todo := [], ret := .faulted f } := rfl
@[simp] theorem faultOperation_irq_caller (f : ModelFault) (s : State) :
    (faultOperation .irq f s).caller = s.caller := rfl

@[simp] theorem thread_setThread (c : Context) (t : Thread) (s : State) : thread c (setThread c t s) = t := by
  cases c <;> rfl
@[simp] theorem setThread_thread (c : Context) (s : State) : setThread c (thread c s) s = s := by
  cases c <;> rfl
@[simp] theorem thread_endOperation (c : Context) (ret : Return) (s : State) :
    thread c (endOperation c ret s) = { thread c s with todo := [], ret := ret } := by
  cases c <;> rfl
@[simp] theorem thread_emit (c : Context) (e : Event) (s : State) : thread c (emit e s) = thread c s := by
  cases c <;> rfl
@[simp] theorem thread_afterRead (c : Context) (r : Reg) (s : State) : thread c (afterRead c r s) = thread c s := by
  cases c <;> rfl

end Sys2Proof.Machine
end

