-- ==== Sys2Proof/Laws/Quiet.lean ====
section
/-! SUPPORT. Running an operation with no other agent in between. -/

namespace Sys2Proof.Machine

/-- With nothing placed for the other agents an interleaving point is no step. -/
theorem interleave_of_nil {c : Option Context} {s : State} (h : s.between = []) : interleave c s = s := by
  simp [interleave, h]

/-- A context with no operation in progress is not run. -/
theorem runCaller_of_idle (n : Nat) {s : State} (h : s.caller.todo = []) : runCaller n s = s := by
  cases n <;> simp [runCaller, h]

/-- With no other agent in between, one action after the other. -/
theorem runCaller_succ (n : Nat) {s : State} (h : s.between = []) :
    runCaller (n + 1) s = runCaller n (stepThread .caller s) := by
  cases ht : s.caller.todo with
  | nil => rw [runCaller_of_idle _ ht, show stepThread .caller s = s by simp [stepThread, ht], runCaller_of_idle _ ht]
  | cons a rest => simp only [runCaller, ht, interleave_of_nil h]

/-- In a quiet state an operation is issued and runs. -/
theorem callerOperation_of_quiet (op : Operation) {s : State} (h : Quiet s) :
    callerOperation op s = finishCaller (issue .caller op s) := by
  simp [callerOperation, finishCaller, h.2, runCaller, interleave_of_nil h.1]

/-- In a quiet state an operation refused before its first action changes the mark and the caller's context only. -/
theorem callerOperation_of_refused {op : Operation} {why : SpecRefusal} {s : State} (h : Quiet s)
    (hp : plan op s = .refuse why) : callerOperation op s = callerRefused why s := by
  rw [callerOperation_of_quiet op h]
  simp [issue, hp, finishCaller, runCaller, refuseOperation, endOperation, callerRefused, markRefused, setThread, h.2]

/-- In a quiet state an operation of one action is that action. -/
theorem callerOperation_of_action {op : Operation} {a : Action} {s : State} (h : Quiet s)
    (hp : plan op s = .actions [a]) :
    callerOperation op s =
      stepThread .caller { s with caller := { s.caller with todo := [a], ret := .nothing } } := by
  rw [callerOperation_of_quiet op h]
  simp [issue, hp, finishCaller, setThread, thread, runCaller, interleave, h.1]

/-- With no handler run in progress no step is taken. -/
theorem runHandler_of_idle (n : Nat) {s : State} (h : s.phase = .idle) : runHandler n s = s := by
  cases n <;> simp [runHandler, h]

/-- With no handler run in progress there is none to finish. -/
theorem finishHandler_of_idle {s : State} (h : s.phase = .idle) : finishHandler s = s := by
  simp [finishHandler, runHandler_of_idle _ h, bodySteps, h]

/-- With no other agent in between, one step of the handler run after the other. -/
theorem runHandler_succ (n : Nat) {s : State} (h : s.between = []) :
    runHandler (n + 1) s = runHandler n (irqStep s) := by
  by_cases hp : s.phase = .idle
  · rw [runHandler_of_idle _ hp, show irqStep s = s by simp [irqStep, hp], runHandler_of_idle _ hp]
  · simp only [runHandler, hp, if_false, interleave_of_nil h]

/-- With no run in progress, `EV irq_handler` is a delivery and the run it starts. -/
theorem execEvIrqHandler_of_quiet {s : State} (h : HandlerQuiet s) :
    execEvIrqHandler s = .next (finishHandler (deliver s)) := by
  rw [execEvIrqHandler, finishHandler_of_idle h.2]

/-- The first step of a run with the clock on clears the status (R206). -/
theorem irqStep_clear {s : State} (h : s.phase = .clear) (hc : 0 < s.clkCount) :
    irqStep s =
      { s with
        regs := clearStatus s.regs,
        history := s.history ++ [writeEvent .irq .intStatus 0#32],
        phase := .readSlot } := by
  have hc' : s.clkCount ≠ 0 := by omega
  simp [irqStep, h, act, actWrite, hc', emit, writeEvent]

/-- The first step of a run with the clock off faults and ends the run (R206, R212). -/
theorem irqStep_clear_unclocked {s : State} (h : s.phase = .clear) (hc : s.clkCount = 0) :
    irqStep s =
      { s with
        faults := faultsWith (.unclockedAccess (regOffset s.params.offsets .intStatus)) s.faults,
        irq := { s.irq with todo := [], ret := .faulted (.unclockedAccess (regOffset s.params.offsets .intStatus)) },
        phase := .idle } := by
  simp [irqStep, h, act, actWrite, hc, faultOperation, endOperation, setThread, thread, recordFault]

end Sys2Proof.Machine
end

