-- ==== Sys2Proof/Laws/Handler.lean ====
section
/-! SUPPORT. What one action of a callback body can do, and where it can fault (R206, R207, R212). -/

namespace Sys2Proof.Machine

/-- An event that an action of a callback body may append: neither a notification nor a handler's return. -/
def BodyEvent (e : Event) : Prop := (∀ x, e ≠ .notify x) ∧ ∀ x, e ≠ .handlerReturn x

/-- What an action of the interrupt context keeps of the machine where it is done. Only `clock_disable` changes the
clock count, and a status that is clear stays clear. -/
structure BodyKeeps (a : Action) (s t : State) : Prop where
  between : t.between = s.between
  phase : t.phase = s.phase
  params : t.params = s.params
  faults : t.faults = s.faults
  todo : t.irq.todo = s.irq.todo
  clkCount : t.clkCount = if a = .clockDisable then s.clkCount - 1 else s.clkCount
  status : s.regs.intStatus = 0#6 → t.regs.intStatus = 0#6
  history : ∃ es, t.history = s.history ++ es ∧ ∀ e ∈ es, BodyEvent e

/-- A write of a register other than `INT_STATUS` keeps the status (R66). -/
theorem storeFields_intStatus {r : Reg} (h : r ≠ .intStatus) (v : Word) (g : Regs) :
    (storeFields r v g).intStatus = g.intStatus := by
  cases r <;> first | exact absurd rfl h | rfl

/-- An action of a callback body that is done. -/
theorem bodyKeeps_of_done {a : Action} {s t : State} {ret : Return} (h : act .irq a s = .done t ret) :
    BodyKeeps a s t := by
  cases a <;>
    simp only [act, actRead, actWrite, actMaskedRead, actMaskedWrite, actRecord, actPutFifo, actClockEnable,
      actClockDisable, actBatchBegin, actBatchSubmit, actResolve] at h <;>
    (repeat' split at h) <;> cases h <;>
    refine ⟨rfl, rfl, rfl, rfl, rfl, rfl, ?_, ?_⟩
  all_goals first
    | exact id
    | exact fun _ => rfl
    | exact fun h => (storeFields_intStatus ‹_› _ _).trans h
    | exact ⟨[], (List.append_nil _).symm, fun _ he => absurd he List.not_mem_nil⟩
    | exact ⟨[_], rfl, by simp [BodyEvent]⟩

/-- The register of an immediate access. -/
def accessOf (a : Action) : Option Reg :=
  match a with
  | .rd r => some r
  | .wr r _ => some r
  | .maskedRead r => some r
  | .maskedWrite r _ _ => some r
  | .putFifo false => some .fifoCon
  | _ => none

/-- An action faults only with the clock off, and at the register it accesses (R78, R117). -/
theorem act_fault {c : Context} {a : Action} {s : State} {f : ModelFault} (h : act c a s = .fault f) :
    s.clkCount = 0 ∧ ∃ r, accessOf a = some r ∧ f = .unclockedAccess (regOffset s.params.offsets r) := by
  cases a <;>
    simp only [act, actRead, actWrite, actMaskedRead, actMaskedWrite, actRecord, actPutFifo, actClockEnable,
      actClockDisable, actBatchBegin, actBatchSubmit, actResolve, checkImmediate_regOffset _ s rfl] at h <;>
    (repeat' split at h) <;> cases h
  all_goals simp_all [accessOf]

/-- With the clock on no action faults (R78). -/
theorem act_ne_fault {s : State} (h : 0 < s.clkCount) (c : Context) (a : Action) (f : ModelFault) :
    act c a s ≠ .fault f := fun hf => absurd (act_fault hf).1 (by omega)

end Sys2Proof.Machine
end

