-- ==== Sys2Proof/Laws/Immediate.lean ====
section
/-! SUPPORT. Immediate writes of the controller's operations, one after the other: what each does to the registers, the
draws, the history and the caller's context (R111, R113, R171), and what the masked writes of R172 to R179 do to the
fields. -/

namespace Sys2Proof.Machine

/-! ## The run of a plan -/

/-- A state that differs from `s` only in what immediate writes of the caller change. -/
def State.midway (s : State) (g : Regs) (n : Nat) (h : List Event) (t : Thread) : State :=
  { s with regs := g, draws := n, history := h, caller := t }

/-- With no other agent in between, the first action is taken and the rest is run. -/
theorem finishCaller_step {s : State} {a : Action} {rest : List Action} (hb : s.between = [])
    (ht : s.caller.todo = a :: rest) : finishCaller s = runCaller rest.length (stepThread .caller s) := by
  simp only [finishCaller, ht, List.length_cons, runCaller_succ _ hb]

/-- An operation with no action left has been run. -/
theorem finishCaller_of_idle {s : State} (ht : s.caller.todo = []) : finishCaller s = s := by
  simp [finishCaller, ht, runCaller]

/-- A plain write, then the rest. -/
theorem finishCaller_put {s : State} (hb : s.between = []) (hc : 0 < s.clkCount) (g : Regs) (n : Nat)
    (h : List Event) (r : Reg) (v : Word) (rest : List Action) (o : Word) (x : Return) (hr : r ≠ .intStatus) :
    finishCaller (s.midway g n h ⟨.wr r v :: rest, o, x⟩)
      = finishCaller (s.midway (storeFields r v g) n (h ++ [writeEvent .caller r v]) ⟨rest, o, .ok⟩) := by
  rw [finishCaller_step (s := s.midway g n h _) hb rfl]
  have hc' : s.clkCount ≠ 0 := by omega
  simp [stepThread, thread, act, actWrite, hc', hr, emit, setThread, finishCaller, writeEvent, State.midway]

/-- A masked write, then the rest. -/
theorem finishCaller_putm {s : State} (hb : s.between = []) (hc : 0 < s.clkCount) (g : Regs) (n : Nat)
    (h : List Event) (r : Reg) (v m : Word) (rest : List Action) (o : Word) (x : Return) (hr : r ≠ .intStatus) :
    finishCaller (s.midway g n h ⟨.maskedRead r :: .maskedWrite r v m :: rest, o, x⟩)
      = finishCaller
          (s.midway (storeFields r (merge (regWord r g) v m) g) (n + 1)
            (h ++ [readEvent .caller r n g, maskedWriteEvent .caller r v m]) ⟨rest, regWord r g, .ok⟩) := by
  rw [finishCaller_step (s := s.midway g n h _) hb rfl]
  have hc' : s.clkCount ≠ 0 := by omega
  simp [stepThread, runCaller, interleave, hb, thread, act, actMaskedRead, actMaskedWrite, afterRead, hc', hr, emit,
    setThread, finishCaller, readEvent, maskedWriteEvent, State.midway]

/-- The plan of an operation is issued in a quiet state. -/
theorem callerOperation_of_plan {op : Operation} {todo : List Action} {s : State} (h : Quiet s)
    (hp : plan op s = .actions todo) :
    callerOperation op s = finishCaller (s.midway s.regs s.draws s.history ⟨todo, s.caller.old, .nothing⟩) := by
  rw [callerOperation_of_quiet op h]
  simp [issue, hp, setThread, thread, State.midway]

/-- In a quiet state an operation that is one masked write. -/
theorem callerOperation_of_putm {op : Operation} {r : Reg} {v m : Word} {s : State} (h : Quiet s)
    (hr : r ≠ .intStatus) (hp : plan op s = .actions (putm false r v m)) :
    callerOperation op s =
      if 0 < s.clkCount then
        { s with
          regs := storeFields r (merge (regWord r s.regs) v m) s.regs,
          draws := s.draws + 1,
          history := s.history ++ [readEvent .caller r s.draws s.regs, maskedWriteEvent .caller r v m],
          caller := { s.caller with old := regWord r s.regs, ret := .ok } }
      else callerUnclocked r s := by
  by_cases hc : s.clkCount = 0
  · rw [callerOperation_of_quiet op h]
    simp [issue, hp, putm, finishCaller, runCaller, interleave, h.1, h.2, stepThread, thread, setThread, act,
      actMaskedRead, hc, hr, faultOperation, endOperation, recordFault, callerUnclocked]
  · rw [callerOperation_of_plan h hp, if_pos (by omega), putm, if_neg (by decide),
      finishCaller_putm h.1 (by omega) _ _ _ _ _ _ _ _ _ hr, finishCaller_of_idle rfl]
    simp [State.midway, h.2]

/-! ## What the masked writes do to the fields -/

/-- R173: `ENGINE_EN` is set. -/
theorem storeFields_start (g : Regs) :
    storeFields .globalCon (merge (regWord .globalCon g) engineEnBit engineEnBit) g = { g with engineEn := 1#1 } := by
  simp only [storeFields, merge, regWord, engineEnBit]
  congr 1 <;> (apply BitVec.eq_of_getLsbD_eq; intro i hi; interval_cases i <;> simp [placed])

/-- R174: `ENGINE_EN` is cleared. -/
theorem storeFields_stop (g : Regs) :
    storeFields .globalCon (merge (regWord .globalCon g) 0#32 engineEnBit) g = { g with engineEn := 0#1 } := by
  simp only [storeFields, merge, regWord, engineEnBit]
  congr 1 <;> (apply BitVec.eq_of_getLsbD_eq; intro i hi; interval_cases i <;> simp [placed])

/-- R179: `MODE_MEMORY` is set. -/
theorem storeFields_modeMemory (g : Regs) :
    storeFields .globalCon (merge (regWord .globalCon g) modeMemoryBit modeMemoryBit) g
      = { g with modeMemory := 1#1 } := by
  simp only [storeFields, merge, regWord, modeMemoryBit]
  congr 1 <;> (apply BitVec.eq_of_getLsbD_eq; intro i hi; interval_cases i <;> simp [placed])

/-- R175: the FRAME_END enable is set. -/
theorem storeFields_enableVblank (g : Regs) :
    storeFields .intEnable (merge (regWord .intEnable g) frameEndBit frameEndBit) g
      = { g with intEnable := g.intEnable ||| 0b000100#6 } := by
  simp only [storeFields, merge, regWord, frameEndBit]
  congr 1 <;> (apply BitVec.eq_of_getLsbD_eq; intro i hi; interval_cases i <;> simp [placed])

/-- R176: the FRAME_END enable is cleared. -/
theorem storeFields_disableVblank (g : Regs) :
    storeFields .intEnable (merge (regWord .intEnable g) 0#32 frameEndBit) g
      = { g with intEnable := g.intEnable &&& 0b111011#6 } := by
  simp only [storeFields, merge, regWord, frameEndBit]
  congr 1 <;> (apply BitVec.eq_of_getLsbD_eq; intro i hi; interval_cases i <;> simp [placed])

/-- R172: the width alone is replaced. -/
theorem storeFields_width (g : Regs) (w : Word) :
    storeFields .sizeCon0 (merge (regWord .sizeCon0 g) w widthMask) g = { g with width := w.extractLsb' 0 12 } := by
  simp only [storeFields, merge, regWord, widthMask]
  congr 1 <;> (apply BitVec.eq_of_getLsbD_eq; intro i hi; interval_cases i <;> simp [placed])

/-- R172: the height is replaced. -/
theorem storeFields_height (g : Regs) (w : Word) :
    storeFields .sizeCon1 (merge (regWord .sizeCon1 g) w heightMask) g = { g with height := w.extractLsb' 0 20 } := by
  simp only [storeFields, merge, regWord, heightMask]
  congr 1 <;> (apply BitVec.eq_of_getLsbD_eq; intro i hi; interval_cases i <;> simp [placed])

/-- R179: the color matrix is enabled. -/
theorem storeFields_matrixOn (g : Regs) :
    storeFields .sizeCon0 (merge (regWord .sizeCon0 g) matrixEnableBit matrixEnableBit) g
      = { g with matrixEnable := 1#1 } := by
  simp only [storeFields, merge, regWord, matrixEnableBit]
  congr 1 <;> (apply BitVec.eq_of_getLsbD_eq; intro i hi; interval_cases i <;> simp [placed])

/-- R179: the color matrix is disabled. -/
theorem storeFields_matrixOff (g : Regs) :
    storeFields .sizeCon0 (merge (regWord .sizeCon0 g) 0#32 matrixEnableBit) g = { g with matrixEnable := 0#1 } := by
  simp only [storeFields, merge, regWord, matrixEnableBit]
  congr 1 <;> (apply BitVec.eq_of_getLsbD_eq; intro i hi; interval_cases i <;> simp [placed])

/-- R179: the matrix is selected. -/
theorem storeFields_mtxSel (g : Regs) (p : Params) :
    storeFields .sizeCon0 (merge (regWord .sizeCon0 g) (bt601Word p) mtxSelMask) g
      = { g with mtxSel := p.bt601Sel } := by
  simp only [storeFields, merge, regWord, bt601Word, mtxSelMask]
  congr 1 <;> (apply BitVec.eq_of_getLsbD_eq; intro i hi; interval_cases i <;> simp [placed])

/-- R179: the memory-format word's two fields. -/
theorem storeFields_memCon (g : Regs) (p : HwCodeValues) (t : Translation) :
    storeFields .memCon (memConWord p t) g
      = { g with inputFormat := hwCodeValue p t.hwCode, inputSwap := t.swap } := by
  simp only [storeFields, memConWord]
  congr 1 <;> (apply BitVec.eq_of_getLsbD_eq; intro i hi; interval_cases i <;> simp [placed])

/-- R179: the low half of the pitch. -/
theorem storeFields_pitch (g : Regs) (p : Word) :
    storeFields .memSrcPitch (pitchWord p) g = { g with pitch := p.extractLsb' 0 16 } := by
  simp only [storeFields, pitchWord]
  congr 1
  apply BitVec.eq_of_getLsbD_eq
  intro i hi
  interval_cases i <;> simp [placed]

end Sys2Proof.Machine
end

