-- ==== Sys2Proof/Laws/Kept.lean ====
section
/-! SUPPORT. One induction over everything a step can do: a relation that every shared primitive keeps holds between a
state and its next state. -/

namespace Sys2Proof.Machine

/-- A relation between a state and a later one that every primitive of a step keeps. -/
structure Kept (R : State → State → Prop) : Prop where
  refl : ∀ s, R s s
  trans : ∀ {s t u}, R s t → R t u → R s u
  thread : ∀ c t s, R s (setThread c t s)
  phase : ∀ p s, R s { s with phase := p }
  between : ∀ b s, R s { s with between := b }
  stream : ∀ b s, R s { s with stream := b }
  batchDone : ∀ s, R s { s with batch := .noBatch }
  emitted : ∀ e s, R s (emit e s)
  refused : ∀ s, R s (markRefused s)
  fault : ∀ f s, R s (recordFault f s)
  status : ∀ bits s, R s (raiseStatus bits s)
  action : ∀ {c a s s' ret}, act c a s = .done s' ret → R s s'
  entry : ∀ {e s s' ret}, applyEntry e s = .done s' ret → R s s'

variable {R : State → State → Prop}

theorem Kept.endOperation (k : Kept R) (c : Context) (ret : Return) (s : State) : R s (endOperation c ret s) :=
  k.thread c _ s

theorem Kept.refuseOperation (k : Kept R) (c : Context) (why : SpecRefusal) (s : State) :
    R s (refuseOperation c why s) :=
  k.trans (k.refused s) (k.endOperation c _ _)

theorem Kept.faultOperation (k : Kept R) (c : Context) (f : ModelFault) (s : State) : R s (faultOperation c f s) :=
  k.trans (k.fault f s) (k.endOperation c _ _)

theorem Kept.stepThread (k : Kept R) (c : Context) (s : State) : R s (stepThread c s) := by
  unfold Machine.stepThread
  split
  · exact k.refl s
  · split
    · rename_i h
      exact k.trans (k.action h) (k.thread c _ _)
    · exact k.refuseOperation c _ s
    · exact k.faultOperation c _ s

theorem Kept.issue (k : Kept R) (c : Context) (op : Operation) (s : State) : R s (issue c op s) := by
  unfold Machine.issue
  split
  · exact k.thread c _ s
  · exact k.refuseOperation c _ s

theorem Kept.applyEntries (k : Kept R) (es : List BatchEntry) (s : State) : R s (applyEntries es s).1 := by
  induction es generalizing s with
  | nil => exact k.refl s
  | cons e rest ih =>
    unfold Machine.applyEntries
    split
    · rename_i h
      exact k.trans (k.entry h) (ih _)
    · exact k.refused s
    · exact k.fault _ s

theorem Kept.executeBatch (k : Kept R) (es : List BatchEntry) (s : State) : R s (executeBatch es s) := by
  have h := k.applyEntries es s
  unfold Machine.executeBatch
  split <;> rename_i heq <;> rw [heq] at h
  · exact k.trans h (k.trans (k.batchDone _) (k.emitted _ _))
  · exact h

theorem Kept.deliver (k : Kept R) (s : State) : R s (deliver s) :=
  k.trans (k.thread .irq { s.irq with todo := [], ret := .nothing } s) (k.phase .clear _)

theorem Kept.handlerReturn (k : Kept R) (x : HandlerResult) (s : State) : R s (handlerReturn x s) :=
  k.trans (k.trans (k.thread .irq { s.irq with todo := [], ret := .handler x } s) (k.phase .idle _)) (k.emitted _ _)

theorem Kept.irqStep (k : Kept R) (s : State) : R s (irqStep s) := by
  unfold Machine.irqStep
  split
  · exact k.refl s
  · split
    · rename_i h
      exact k.trans (k.action h) (k.phase _ _)
    · exact k.trans (k.refuseOperation .irq _ s) (k.phase _ _)
    · exact k.trans (k.faultOperation .irq _ s) (k.phase _ _)
  · split
    · exact k.handlerReturn _ s
    · exact k.phase _ s
  · exact k.trans (k.phase _ s) (k.emitted _ _)
  · split
    · split
      · exact k.trans (k.stepThread .irq s) (k.phase _ _)
      · exact k.stepThread .irq s
    · split
      · exact k.trans (k.phase _ s) (k.issue .irq _ _)
      · exact k.handlerReturn _ s

theorem Kept.move (k : Kept R) (running : Option Context) (m : Move) (s : State) : R s (move running m s) := by
  cases m <;> simp only [Machine.move] <;> split <;>
    first
      | exact k.refl s
      | exact k.status _ s
      | exact k.executeBatch _ s
      | exact k.deliver s
      | exact k.irqStep s
      | exact k.issue .caller _ s
      | exact k.stepThread .caller s

theorem Kept.moves (k : Kept R) (running : Option Context) (ms : List Move) (s : State) :
    R s (moves running ms s) := by
  induction ms generalizing s with
  | nil => exact k.refl s
  | cons m rest ih => exact k.trans (k.move running m s) (ih _)

theorem Kept.interleave (k : Kept R) (running : Option Context) (s : State) : R s (interleave running s) := by
  unfold Machine.interleave
  split
  · exact k.refl s
  · exact k.trans (k.between _ s) (k.moves running _ _)

theorem Kept.runCaller (k : Kept R) (n : Nat) (s : State) : R s (runCaller n s) := by
  induction n generalizing s with
  | zero => exact k.refl s
  | succ n ih =>
    unfold Machine.runCaller
    split
    · exact k.refl s
    · exact k.trans (k.trans (k.interleave _ s) (k.stepThread .caller _)) (ih _)

theorem Kept.callerOperation (k : Kept R) (op : Operation) (s : State) : R s (callerOperation op s) :=
  k.trans (k.trans (k.trans (k.runCaller _ s) (k.interleave _ _)) (k.issue .caller op _)) (k.runCaller _ _)

theorem Kept.runHandler (k : Kept R) (n : Nat) (s : State) : R s (runHandler n s) := by
  induction n generalizing s with
  | zero => exact k.refl s
  | succ n ih =>
    unfold Machine.runHandler
    split
    · exact k.refl s
    · exact k.trans (k.trans (k.interleave _ s) (k.irqStep _)) (ih _)

theorem Kept.finishHandler (k : Kept R) (s : State) : R s (finishHandler s) :=
  k.trans (k.runHandler 3 s) (k.runHandler _ _)

/-- A kept relation holds between a state and the next one, whatever the instruction. -/
theorem Kept.exec (k : Kept R) {i : Instr} {s t : State} (h : exec i s = .next t) : R s t := by
  cases i
  case evEngineEvent bits =>
    simp only [Machine.exec, execEvEngineEvent] at h
    split at h <;> cases h
    exact k.status bits s
  case evIrqHandler =>
    cases h
    exact k.trans (k.trans (k.finishHandler s) (k.deliver _)) (k.finishHandler _)
  case evBatchExecute =>
    simp only [Machine.exec, execEvBatchExecute] at h
    split at h <;> cases h
    exact k.executeBatch _ s
  case illegal d =>
    simp only [Machine.exec, execIllegal] at h
    split at h <;> cases h
    · exact k.trans (k.refused s) (k.fault _ _)
    · exact k.refused s
  all_goals
    cases h
    exact k.callerOperation _ s

/-- A kept relation holds between a state and the next one. -/
theorem Kept.step (k : Kept R) {s t : State} (h : step s = .next t) : R s t := by
  unfold Machine.step at h
  split at h
  · cases h
    exact k.interleave none s
  · split at h
    · exact k.trans (k.stream _ s) (k.exec h)
    · cases h

end Sys2Proof.Machine
end

