-- ==== Sys2Proof/Laws/PerInstr.lean ====
section
/-! SUPPORT. A statement made per instruction: an item takes two bytes for its descriptor and four for each operand word
(R80, R98). -/

namespace Sys2Proof.Laws.EncodedLength

/-- How many operand words R98 gives a descriptor that is legal: by class, and in the classes 0x8 and 0x9 by number. -/
def wordsAfter (d : Half) : Nat :=
  match (d.extractLsb' 12 4).toNat with
  | 0x1 => 0
  | 0x2 => 1
  | 0x3 => 2
  | 0x4 => 1
  | 0x5 => 2
  | 0x8 =>
    match (d.extractLsb' 0 12).toNat with
    | 0x001 => 5
    | 0x006 => 2
    | 0x008 => 5
    | 0x00C => 1
    | 0x00D => 1
    | _ => 0
  | _ => if d = 0x9001#16 then 1 else 0

/-- How many operand words an instruction has (R98), by its descriptor in the opcode table; an illegal one carries its
own. -/
def operandCount (i : Instr) : Nat :=
  match i with
  | .illegal d => d.words.length
  | i => wordsAfter (i.descriptor Config.offsets)

/-- The length of an encoded instruction, whatever the offsets (R80, R98). -/
def Statement (i : Instr) : Prop := ∀ o : Offsets, (encode o i).length = 2 + 4 * operandCount i

/-- Two bytes for the descriptor, four for each operand word. -/
theorem length_encode (o : Offsets) (i : Instr) : (encode o i).length = 2 + 4 * i.operandWords.length := by
  have key : ∀ ws : List Word, (ws.flatMap wordBytes).length = 4 * ws.length := by
    intro ws
    induction ws with
    | nil => rfl
    | cons w rest ih =>
      rw [List.flatMap_cons, List.length_append, ih, List.length_cons]
      simp only [wordBytes, List.length_cons, List.length_nil]
      omega
  rw [encode, List.length_append, key]
  rfl

/-- An instruction of table descriptor `d`, with the operand words that R98 gives `d`, has the stated length. -/
theorem of_count {i : Instr} (d : Half) (n : Nat) (hd : operandCount i = wordsAfter d)
    (hn : i.operandWords.length = n) (h : wordsAfter d = n) : Statement i := by
  intro o
  rw [length_encode, hd, h, hn]

theorem rdIntEnable : Statement .rdIntEnable := of_count 0x1000#16 0 rfl rfl (by decide)
theorem rdIntStatus : Statement .rdIntStatus := of_count 0x1004#16 0 rfl rfl (by decide)
theorem rdGlobalCon : Statement .rdGlobalCon := of_count 0x1010#16 0 rfl rfl (by decide)
theorem rdSizeCon0 : Statement .rdSizeCon0 := of_count 0x1014#16 0 rfl rfl (by decide)
theorem rdSizeCon1 : Statement .rdSizeCon1 := of_count 0x1018#16 0 rfl rfl (by decide)
theorem rdMemCon : Statement .rdMemCon := of_count 0x1024#16 0 rfl rfl (by decide)
theorem rdMemSrcPitch : Statement .rdMemSrcPitch := of_count 0x102C#16 0 rfl rfl (by decide)
theorem rdMemGmcSetting0 : Statement .rdMemGmcSetting0 := of_count 0x1030#16 0 rfl rfl (by decide)
theorem rdFifoCon : Statement .rdFifoCon := of_count 0x1040#16 0 rfl rfl (by decide)
theorem rdMemStartAddr : Statement .rdMemStartAddr := of_count 0x1F00#16 0 rfl rfl (by decide)
theorem wrIntEnable (v : Word) : Statement (.wrIntEnable v) := of_count 0x2000#16 1 rfl rfl (by decide)
theorem wrIntStatus (v : Word) : Statement (.wrIntStatus v) := of_count 0x2004#16 1 rfl rfl (by decide)
theorem wrGlobalCon (v : Word) : Statement (.wrGlobalCon v) := of_count 0x2010#16 1 rfl rfl (by decide)
theorem wrSizeCon0 (v : Word) : Statement (.wrSizeCon0 v) := of_count 0x2014#16 1 rfl rfl (by decide)
theorem wrSizeCon1 (v : Word) : Statement (.wrSizeCon1 v) := of_count 0x2018#16 1 rfl rfl (by decide)
theorem wrMemCon (v : Word) : Statement (.wrMemCon v) := of_count 0x2024#16 1 rfl rfl (by decide)
theorem wrMemSrcPitch (v : Word) : Statement (.wrMemSrcPitch v) := of_count 0x202C#16 1 rfl rfl (by decide)
theorem wrMemGmcSetting0 (v : Word) : Statement (.wrMemGmcSetting0 v) := of_count 0x2030#16 1 rfl rfl (by decide)
theorem wrFifoCon (v : Word) : Statement (.wrFifoCon v) := of_count 0x2040#16 1 rfl rfl (by decide)
theorem wrMemStartAddr (v : Word) : Statement (.wrMemStartAddr v) := of_count 0x2F00#16 1 rfl rfl (by decide)
theorem wrmIntEnable (v m : Word) : Statement (.wrmIntEnable v m) := of_count 0x3000#16 2 rfl rfl (by decide)
theorem wrmIntStatus (v m : Word) : Statement (.wrmIntStatus v m) := of_count 0x3004#16 2 rfl rfl (by decide)
theorem wrmGlobalCon (v m : Word) : Statement (.wrmGlobalCon v m) := of_count 0x3010#16 2 rfl rfl (by decide)
theorem wrmSizeCon0 (v m : Word) : Statement (.wrmSizeCon0 v m) := of_count 0x3014#16 2 rfl rfl (by decide)
theorem wrmSizeCon1 (v m : Word) : Statement (.wrmSizeCon1 v m) := of_count 0x3018#16 2 rfl rfl (by decide)
theorem wrmMemCon (v m : Word) : Statement (.wrmMemCon v m) := of_count 0x3024#16 2 rfl rfl (by decide)
theorem wrmMemSrcPitch (v m : Word) : Statement (.wrmMemSrcPitch v m) := of_count 0x302C#16 2 rfl rfl (by decide)
theorem wrmMemGmcSetting0 (v m : Word) : Statement (.wrmMemGmcSetting0 v m) :=
  of_count 0x3030#16 2 rfl rfl (by decide)
theorem wrmFifoCon (v m : Word) : Statement (.wrmFifoCon v m) := of_count 0x3040#16 2 rfl rfl (by decide)
theorem wrmMemStartAddr (v m : Word) : Statement (.wrmMemStartAddr v m) := of_count 0x3F00#16 2 rfl rfl (by decide)
theorem bwrIntEnable (v : Word) : Statement (.bwrIntEnable v) := of_count 0x4000#16 1 rfl rfl (by decide)
theorem bwrIntStatus (v : Word) : Statement (.bwrIntStatus v) := of_count 0x4004#16 1 rfl rfl (by decide)
theorem bwrGlobalCon (v : Word) : Statement (.bwrGlobalCon v) := of_count 0x4010#16 1 rfl rfl (by decide)
theorem bwrSizeCon0 (v : Word) : Statement (.bwrSizeCon0 v) := of_count 0x4014#16 1 rfl rfl (by decide)
theorem bwrSizeCon1 (v : Word) : Statement (.bwrSizeCon1 v) := of_count 0x4018#16 1 rfl rfl (by decide)
theorem bwrMemCon (v : Word) : Statement (.bwrMemCon v) := of_count 0x4024#16 1 rfl rfl (by decide)
theorem bwrMemSrcPitch (v : Word) : Statement (.bwrMemSrcPitch v) := of_count 0x402C#16 1 rfl rfl (by decide)
theorem bwrMemGmcSetting0 (v : Word) : Statement (.bwrMemGmcSetting0 v) := of_count 0x4030#16 1 rfl rfl (by decide)
theorem bwrFifoCon (v : Word) : Statement (.bwrFifoCon v) := of_count 0x4040#16 1 rfl rfl (by decide)
theorem bwrMemStartAddr (v : Word) : Statement (.bwrMemStartAddr v) := of_count 0x4F00#16 1 rfl rfl (by decide)
theorem bwrmIntEnable (v m : Word) : Statement (.bwrmIntEnable v m) := of_count 0x5000#16 2 rfl rfl (by decide)
theorem bwrmIntStatus (v m : Word) : Statement (.bwrmIntStatus v m) := of_count 0x5004#16 2 rfl rfl (by decide)
theorem bwrmGlobalCon (v m : Word) : Statement (.bwrmGlobalCon v m) := of_count 0x5010#16 2 rfl rfl (by decide)
theorem bwrmSizeCon0 (v m : Word) : Statement (.bwrmSizeCon0 v m) := of_count 0x5014#16 2 rfl rfl (by decide)
theorem bwrmSizeCon1 (v m : Word) : Statement (.bwrmSizeCon1 v m) := of_count 0x5018#16 2 rfl rfl (by decide)
theorem bwrmMemCon (v m : Word) : Statement (.bwrmMemCon v m) := of_count 0x5024#16 2 rfl rfl (by decide)
theorem bwrmMemSrcPitch (v m : Word) : Statement (.bwrmMemSrcPitch v m) := of_count 0x502C#16 2 rfl rfl (by decide)
theorem bwrmMemGmcSetting0 (v m : Word) : Statement (.bwrmMemGmcSetting0 v m) :=
  of_count 0x5030#16 2 rfl rfl (by decide)
theorem bwrmFifoCon (v m : Word) : Statement (.bwrmFifoCon v m) := of_count 0x5040#16 2 rfl rfl (by decide)
theorem bwrmMemStartAddr (v m : Word) : Statement (.bwrmMemStartAddr v m) := of_count 0x5F00#16 2 rfl rfl (by decide)
theorem opConfigureGeometry (width height refreshRate bpc useBatch : Word) : Statement (.opConfigureGeometry width height refreshRate bpc useBatch) :=
  of_count 0x8001#16 5 rfl rfl (by decide)
theorem opStart : Statement .opStart := of_count 0x8002#16 0 rfl rfl (by decide)
theorem opStop : Statement .opStop := of_count 0x8003#16 0 rfl rfl (by decide)
theorem opEnableVblank : Statement .opEnableVblank := of_count 0x8004#16 0 rfl rfl (by decide)
theorem opDisableVblank : Statement .opDisableVblank := of_count 0x8005#16 0 rfl rfl (by decide)
theorem opRegisterCallback (fn ctx : Word) : Statement (.opRegisterCallback fn ctx) :=
  of_count 0x8006#16 2 rfl rfl (by decide)
theorem opClearCallback : Statement .opClearCallback := of_count 0x8007#16 0 rfl rfl (by decide)
theorem opConfigureLayer (index address pitch format useBatch : Word) : Statement (.opConfigureLayer index address pitch format useBatch) :=
  of_count 0x8008#16 5 rfl rfl (by decide)
theorem opClockEnable : Statement .opClockEnable := of_count 0x8009#16 0 rfl rfl (by decide)
theorem opClockDisable : Statement .opClockDisable := of_count 0x800A#16 0 rfl rfl (by decide)
theorem opQuerySupportedFormats : Statement .opQuerySupportedFormats := of_count 0x800B#16 0 rfl rfl (by decide)
theorem opTranslate (format : Word) : Statement (.opTranslate format) := of_count 0x800C#16 1 rfl rfl (by decide)
theorem opComputeFifoParams (capacity : Word) : Statement (.opComputeFifoParams capacity) :=
  of_count 0x800D#16 1 rfl rfl (by decide)
theorem opResolveFifoCapacity : Statement .opResolveFifoCapacity := of_count 0x800E#16 0 rfl rfl (by decide)
theorem opBatchBegin : Statement .opBatchBegin := of_count 0x8010#16 0 rfl rfl (by decide)
theorem opBatchSubmit : Statement .opBatchSubmit := of_count 0x8011#16 0 rfl rfl (by decide)
theorem evEngineEvent (bits : Sources) : Statement (.evEngineEvent bits) := of_count 0x9001#16 1 rfl rfl (by decide)
theorem evIrqHandler : Statement .evIrqHandler := of_count 0x9002#16 0 rfl rfl (by decide)
theorem evBatchExecute : Statement .evBatchExecute := of_count 0x9003#16 0 rfl rfl (by decide)
theorem illegal (d : IllegalItem) : Statement (.illegal d) := fun o => length_encode o _

end Sys2Proof.Laws.EncodedLength
end

