-- ==== Sys2Proof/Machine/Asm.lean ====
section
/-! DEFINITION. The assembler syntax of R99: the text of an item. Numbers are written in decimal, which R99 admits
beside C hexadecimal. An illegal descriptor has no text. -/

namespace Sys2Proof.Machine

/-- The name of a register (R21). -/
def regName (r : Reg) : String :=
  match r with
  | .intEnable => "INT_ENABLE"
  | .intStatus => "INT_STATUS"
  | .globalCon => "GLOBAL_CON"
  | .sizeCon0 => "SIZE_CON_0"
  | .sizeCon1 => "SIZE_CON_1"
  | .memCon => "MEM_CON"
  | .memSrcPitch => "MEM_SRC_PITCH"
  | .memGmcSetting0 => "MEM_GMC_SETTING_0"
  | .fifoCon => "FIFO_CON"
  | .memStartAddr => "MEM_START_ADDR"

/-- Operands separated by commas. -/
def commaSeparated (xs : List String) : String := String.intercalate ", " xs

/-- A number, in decimal. -/
def numeral (w : Word) : String := Nat.repr w.toNat

/-- `<mnemonic> <reg>, <numbers>`. -/
def accessText (mnemonic : String) (r : Reg) (ws : List Word) : String :=
  mnemonic ++ " " ++ commaSeparated (regName r :: ws.map numeral)

/-- `<mnemonic>(<operands>)`. -/
def operationText (mnemonic : String) (ws : List Word) : String :=
  mnemonic ++ "(" ++ commaSeparated (ws.map numeral) ++ ")"

/-- The text of an item (R99). -/
def assemblerText (i : Instr) : Option String :=
  match i with
  | .rdIntEnable => some (accessText "RD" .intEnable [])
  | .rdIntStatus => some (accessText "RD" .intStatus [])
  | .rdGlobalCon => some (accessText "RD" .globalCon [])
  | .rdSizeCon0 => some (accessText "RD" .sizeCon0 [])
  | .rdSizeCon1 => some (accessText "RD" .sizeCon1 [])
  | .rdMemCon => some (accessText "RD" .memCon [])
  | .rdMemSrcPitch => some (accessText "RD" .memSrcPitch [])
  | .rdMemGmcSetting0 => some (accessText "RD" .memGmcSetting0 [])
  | .rdFifoCon => some (accessText "RD" .fifoCon [])
  | .rdMemStartAddr => some (accessText "RD" .memStartAddr [])
  | .wrIntEnable v => some (accessText "WR" .intEnable [v])
  | .wrIntStatus v => some (accessText "WR" .intStatus [v])
  | .wrGlobalCon v => some (accessText "WR" .globalCon [v])
  | .wrSizeCon0 v => some (accessText "WR" .sizeCon0 [v])
  | .wrSizeCon1 v => some (accessText "WR" .sizeCon1 [v])
  | .wrMemCon v => some (accessText "WR" .memCon [v])
  | .wrMemSrcPitch v => some (accessText "WR" .memSrcPitch [v])
  | .wrMemGmcSetting0 v => some (accessText "WR" .memGmcSetting0 [v])
  | .wrFifoCon v => some (accessText "WR" .fifoCon [v])
  | .wrMemStartAddr v => some (accessText "WR" .memStartAddr [v])
  | .wrmIntEnable v m => some (accessText "WRM" .intEnable [v, m])
  | .wrmIntStatus v m => some (accessText "WRM" .intStatus [v, m])
  | .wrmGlobalCon v m => some (accessText "WRM" .globalCon [v, m])
  | .wrmSizeCon0 v m => some (accessText "WRM" .sizeCon0 [v, m])
  | .wrmSizeCon1 v m => some (accessText "WRM" .sizeCon1 [v, m])
  | .wrmMemCon v m => some (accessText "WRM" .memCon [v, m])
  | .wrmMemSrcPitch v m => some (accessText "WRM" .memSrcPitch [v, m])
  | .wrmMemGmcSetting0 v m => some (accessText "WRM" .memGmcSetting0 [v, m])
  | .wrmFifoCon v m => some (accessText "WRM" .fifoCon [v, m])
  | .wrmMemStartAddr v m => some (accessText "WRM" .memStartAddr [v, m])
  | .bwrIntEnable v => some (accessText "BWR" .intEnable [v])
  | .bwrIntStatus v => some (accessText "BWR" .intStatus [v])
  | .bwrGlobalCon v => some (accessText "BWR" .globalCon [v])
  | .bwrSizeCon0 v => some (accessText "BWR" .sizeCon0 [v])
  | .bwrSizeCon1 v => some (accessText "BWR" .sizeCon1 [v])
  | .bwrMemCon v => some (accessText "BWR" .memCon [v])
  | .bwrMemSrcPitch v => some (accessText "BWR" .memSrcPitch [v])
  | .bwrMemGmcSetting0 v => some (accessText "BWR" .memGmcSetting0 [v])
  | .bwrFifoCon v => some (accessText "BWR" .fifoCon [v])
  | .bwrMemStartAddr v => some (accessText "BWR" .memStartAddr [v])
  | .bwrmIntEnable v m => some (accessText "BWRM" .intEnable [v, m])
  | .bwrmIntStatus v m => some (accessText "BWRM" .intStatus [v, m])
  | .bwrmGlobalCon v m => some (accessText "BWRM" .globalCon [v, m])
  | .bwrmSizeCon0 v m => some (accessText "BWRM" .sizeCon0 [v, m])
  | .bwrmSizeCon1 v m => some (accessText "BWRM" .sizeCon1 [v, m])
  | .bwrmMemCon v m => some (accessText "BWRM" .memCon [v, m])
  | .bwrmMemSrcPitch v m => some (accessText "BWRM" .memSrcPitch [v, m])
  | .bwrmMemGmcSetting0 v m => some (accessText "BWRM" .memGmcSetting0 [v, m])
  | .bwrmFifoCon v m => some (accessText "BWRM" .fifoCon [v, m])
  | .bwrmMemStartAddr v m => some (accessText "BWRM" .memStartAddr [v, m])
  | .opConfigureGeometry w h r b u => some (operationText "configure_geometry" [w, h, r, b, u])
  | .opStart => some (operationText "start" [])
  | .opStop => some (operationText "stop" [])
  | .opEnableVblank => some (operationText "enable_vblank" [])
  | .opDisableVblank => some (operationText "disable_vblank" [])
  | .opRegisterCallback f c => some (operationText "register_callback" [f, c])
  | .opClearCallback => some (operationText "clear_callback" [])
  | .opConfigureLayer i a p f u => some (operationText "configure_layer" [i, a, p, f, u])
  | .opClockEnable => some (operationText "clock_enable" [])
  | .opClockDisable => some (operationText "clock_disable" [])
  | .opQuerySupportedFormats => some (operationText "query_supported_formats" [])
  | .opTranslate f => some (operationText "translate" [f])
  | .opComputeFifoParams c => some (operationText "compute_fifo_params" [c])
  | .opResolveFifoCapacity => some (operationText "resolve_fifo_capacity" [])
  | .opBatchBegin => some (operationText "batch_begin" [])
  | .opBatchSubmit => some (operationText "batch_submit" [])
  | .evEngineEvent bits => some ("EV engine_event " ++ numeral (bits.setWidth 32))
  | .evIrqHandler => some "EV irq_handler"
  | .evBatchExecute => some "EV batch_execute"
  | .illegal _ => none

end Sys2Proof.Machine
end

