-- ==== Sys2Proof/Tests/Slice0.lean ====
section
/-! SUPPORT. Tests: the WellFormed smoke test, each row's decoding from its word written out from R80 to R84 and R98, the
vectors of 95_test_vectors.md, and for each obligation with hypotheses a state and operands that meet them. -/

open Sys2Proof Sys2Proof.Machine

namespace Sys2Proof.Tests

/-! ## Small states -/

/-- Reset, with the clock on. -/
def ready : State := { State.reset with clkCount := 1 }

/-- `ready`, with the engine enabled and FRAME_END enabled. -/
def running : State := { ready with regs := { ready.regs with engineEn := 1#1, intEnable := 0b000100#6 } }

/-- `ready`, with an open batch that has no entries. -/
def recordingEmpty : State := { ready with batch := .recording [] }

/-- A callback. -/
def someCallback : Callback := { fn := 0x1000#32, ctx := 0x2000#32 }

/-- Whether an outcome is a next state that has a property. -/
def after (o : Host.Outcome State Fault Refusal) (p : State → Bool) : Bool :=
  match o with
  | .next t => p t
  | .fault _ => false
  | .refused _ => false

/-! ## WellFormed -/

/-- Whether an illegal descriptor with these operand words is well formed at the default offsets. -/
def illegalOk (d : Half) (ws : List Word) : Bool := (Instr.illegal ⟨d, ws⟩).wellFormed Config.offsets

/-- R82 to R84, R97: the descriptor of a legal row is no illegal descriptor, in every class. -/
theorem test_wellFormed_refuses_legal_descriptors :
    illegalOk 0x1000#16 [] = false ∧ illegalOk 0x2F00#16 [0#32] = false ∧ illegalOk 0x3004#16 [0#32, 0#32] = false
      ∧ illegalOk 0x4010#16 [0#32] = false ∧ illegalOk 0x5040#16 [0#32, 0#32] = false
      ∧ illegalOk 0x8011#16 [] = false ∧ illegalOk 0x9003#16 [] = false := by decide

/-- R80, R98: an illegal access has the operand words of its class, no fewer and no more. -/
theorem test_wellFormed_refuses_other_word_counts :
    illegalOk 0x1008#16 [0#32] = false ∧ illegalOk 0x201C#16 [] = false ∧ illegalOk 0x201C#16 [0#32, 0#32] = false
      ∧ illegalOk 0x301C#16 [0#32] = false ∧ illegalOk 0x401C#16 [] = false ∧ illegalOk 0x501C#16 [] = false
      ∧ illegalOk 0x800F#16 [0#32] = false ∧ illegalOk 0x6000#16 [0#32] = false := by decide

/-- R82 (offset 0x008, misaligned 0x002), R83 (0x00F is no operation), R84, R97 (class 0x0, 0x6, 0xF). -/
theorem test_wellFormed_admits_illegal_descriptors :
    illegalOk 0x1008#16 [] = true ∧ illegalOk 0x2002#16 [0#32] = true ∧ illegalOk 0x301C#16 [0#32, 0#32] = true
      ∧ illegalOk 0x401C#16 [0#32] = true ∧ illegalOk 0x501C#16 [0#32, 0#32] = true
      ∧ illegalOk 0x800F#16 [] = true ∧ illegalOk 0x8000#16 [] = true ∧ illegalOk 0x9004#16 [] = true
      ∧ illegalOk 0x0000#16 [] = true ∧ illegalOk 0x6000#16 [] = true ∧ illegalOk 0xFFFF#16 [] = true := by decide

/-! ## Decoding -/

/-- R80, R81, R98: class 0x1 over the ten offsets of R21. -/
theorem test_decode_rd :
    decodeTableWord 16 0x1000 = some .rdIntEnable
      ∧ decodeTableWord 16 0x1004 = some .rdIntStatus
      ∧ decodeTableWord 16 0x1010 = some .rdGlobalCon
      ∧ decodeTableWord 16 0x1014 = some .rdSizeCon0
      ∧ decodeTableWord 16 0x1018 = some .rdSizeCon1
      ∧ decodeTableWord 16 0x1024 = some .rdMemCon
      ∧ decodeTableWord 16 0x102C = some .rdMemSrcPitch
      ∧ decodeTableWord 16 0x1030 = some .rdMemGmcSetting0
      ∧ decodeTableWord 16 0x1040 = some .rdFifoCon
      ∧ decodeTableWord 16 0x1F00 = some .rdMemStartAddr := by decide

/-- R80, R81, R98: class 0x2 over the ten offsets of R21. -/
theorem test_decode_wr :
    decodeTableWord 48 0x89ABCDEF2000 = some (.wrIntEnable 0x89ABCDEF#32)
      ∧ decodeTableWord 48 0x89ABCDF02004 = some (.wrIntStatus 0x89ABCDF0#32)
      ∧ decodeTableWord 48 0x89ABCDF12010 = some (.wrGlobalCon 0x89ABCDF1#32)
      ∧ decodeTableWord 48 0x89ABCDF22014 = some (.wrSizeCon0 0x89ABCDF2#32)
      ∧ decodeTableWord 48 0x89ABCDF32018 = some (.wrSizeCon1 0x89ABCDF3#32)
      ∧ decodeTableWord 48 0x89ABCDF42024 = some (.wrMemCon 0x89ABCDF4#32)
      ∧ decodeTableWord 48 0x89ABCDF5202C = some (.wrMemSrcPitch 0x89ABCDF5#32)
      ∧ decodeTableWord 48 0x89ABCDF62030 = some (.wrMemGmcSetting0 0x89ABCDF6#32)
      ∧ decodeTableWord 48 0x89ABCDF72040 = some (.wrFifoCon 0x89ABCDF7#32)
      ∧ decodeTableWord 48 0x89ABCDF82F00 = some (.wrMemStartAddr 0x89ABCDF8#32) := by decide

/-- R80, R81, R98: class 0x3 over the ten offsets of R21. -/
theorem test_decode_wrm :
    decodeTableWord 80 0x123456789ABCDEF3000 = some (.wrmIntEnable 0x89ABCDEF#32 0x01234567#32)
      ∧ decodeTableWord 80 0x123456889ABCDF03004 = some (.wrmIntStatus 0x89ABCDF0#32 0x01234568#32)
      ∧ decodeTableWord 80 0x123456989ABCDF13010 = some (.wrmGlobalCon 0x89ABCDF1#32 0x01234569#32)
      ∧ decodeTableWord 80 0x123456A89ABCDF23014 = some (.wrmSizeCon0 0x89ABCDF2#32 0x0123456A#32)
      ∧ decodeTableWord 80 0x123456B89ABCDF33018 = some (.wrmSizeCon1 0x89ABCDF3#32 0x0123456B#32)
      ∧ decodeTableWord 80 0x123456C89ABCDF43024 = some (.wrmMemCon 0x89ABCDF4#32 0x0123456C#32)
      ∧ decodeTableWord 80 0x123456D89ABCDF5302C = some (.wrmMemSrcPitch 0x89ABCDF5#32 0x0123456D#32)
      ∧ decodeTableWord 80 0x123456E89ABCDF63030 = some (.wrmMemGmcSetting0 0x89ABCDF6#32 0x0123456E#32)
      ∧ decodeTableWord 80 0x123456F89ABCDF73040 = some (.wrmFifoCon 0x89ABCDF7#32 0x0123456F#32)
      ∧ decodeTableWord 80 0x123457089ABCDF83F00 = some (.wrmMemStartAddr 0x89ABCDF8#32 0x01234570#32) := by decide

/-- R80, R81, R98: class 0x4 over the ten offsets of R21. -/
theorem test_decode_bwr :
    decodeTableWord 48 0x89ABCDEF4000 = some (.bwrIntEnable 0x89ABCDEF#32)
      ∧ decodeTableWord 48 0x89ABCDF04004 = some (.bwrIntStatus 0x89ABCDF0#32)
      ∧ decodeTableWord 48 0x89ABCDF14010 = some (.bwrGlobalCon 0x89ABCDF1#32)
      ∧ decodeTableWord 48 0x89ABCDF24014 = some (.bwrSizeCon0 0x89ABCDF2#32)
      ∧ decodeTableWord 48 0x89ABCDF34018 = some (.bwrSizeCon1 0x89ABCDF3#32)
      ∧ decodeTableWord 48 0x89ABCDF44024 = some (.bwrMemCon 0x89ABCDF4#32)
      ∧ decodeTableWord 48 0x89ABCDF5402C = some (.bwrMemSrcPitch 0x89ABCDF5#32)
      ∧ decodeTableWord 48 0x89ABCDF64030 = some (.bwrMemGmcSetting0 0x89ABCDF6#32)
      ∧ decodeTableWord 48 0x89ABCDF74040 = some (.bwrFifoCon 0x89ABCDF7#32)
      ∧ decodeTableWord 48 0x89ABCDF84F00 = some (.bwrMemStartAddr 0x89ABCDF8#32) := by decide

/-- R80, R81, R98: class 0x5 over the ten offsets of R21. -/
theorem test_decode_bwrm :
    decodeTableWord 80 0x123456789ABCDEF5000 = some (.bwrmIntEnable 0x89ABCDEF#32 0x01234567#32)
      ∧ decodeTableWord 80 0x123456889ABCDF05004 = some (.bwrmIntStatus 0x89ABCDF0#32 0x01234568#32)
      ∧ decodeTableWord 80 0x123456989ABCDF15010 = some (.bwrmGlobalCon 0x89ABCDF1#32 0x01234569#32)
      ∧ decodeTableWord 80 0x123456A89ABCDF25014 = some (.bwrmSizeCon0 0x89ABCDF2#32 0x0123456A#32)
      ∧ decodeTableWord 80 0x123456B89ABCDF35018 = some (.bwrmSizeCon1 0x89ABCDF3#32 0x0123456B#32)
      ∧ decodeTableWord 80 0x123456C89ABCDF45024 = some (.bwrmMemCon 0x89ABCDF4#32 0x0123456C#32)
      ∧ decodeTableWord 80 0x123456D89ABCDF5502C = some (.bwrmMemSrcPitch 0x89ABCDF5#32 0x0123456D#32)
      ∧ decodeTableWord 80 0x123456E89ABCDF65030 = some (.bwrmMemGmcSetting0 0x89ABCDF6#32 0x0123456E#32)
      ∧ decodeTableWord 80 0x123456F89ABCDF75040 = some (.bwrmFifoCon 0x89ABCDF7#32 0x0123456F#32)
      ∧ decodeTableWord 80 0x123457089ABCDF85F00 = some (.bwrmMemStartAddr 0x89ABCDF8#32 0x01234570#32) := by decide

/-- R83, R98: class 0x8, the operations of at most two operand words. -/
theorem test_decode_op :
    decodeTableWord 16 0x8002 = some .opStart
      ∧ decodeTableWord 16 0x8003 = some .opStop
      ∧ decodeTableWord 16 0x8004 = some .opEnableVblank
      ∧ decodeTableWord 16 0x8005 = some .opDisableVblank
      ∧ decodeTableWord 80 0x89ABCDF089ABCDEF8006 = some (.opRegisterCallback 0x89ABCDEF#32 0x89ABCDF0#32)
      ∧ decodeTableWord 16 0x8007 = some .opClearCallback
      ∧ decodeTableWord 16 0x8009 = some .opClockEnable
      ∧ decodeTableWord 16 0x800A = some .opClockDisable
      ∧ decodeTableWord 16 0x800B = some .opQuerySupportedFormats
      ∧ decodeTableWord 48 0x89ABCDEF800C = some (.opTranslate 0x89ABCDEF#32)
      ∧ decodeTableWord 48 0x89ABCDEF800D = some (.opComputeFifoParams 0x89ABCDEF#32)
      ∧ decodeTableWord 16 0x800E = some .opResolveFifoCapacity
      ∧ decodeTableWord 16 0x8010 = some .opBatchBegin
      ∧ decodeTableWord 16 0x8011 = some .opBatchSubmit := by decide

/-- P1 of the spec: `configure_geometry(1920, 1080, 60, 8, 0)` and `configure_layer(0, 0x80000000, 7680, XRGB8888, 0)`. -/
theorem test_decode_configure :
    decodeTableWord 176 0x80000003C00000438000007808001
        = some (.opConfigureGeometry 0x780#32 0x438#32 0x3C#32 0x8#32 0x0#32)
      ∧ decodeTableWord 176 0x3432525800001E0080000000000000008008
        = some (.opConfigureLayer 0x0#32 0x80000000#32 0x1E00#32 0x34325258#32 0x0#32) := by decide

/-- R84, R97, R98: class 0x9, and descriptors that are illegal. -/
theorem test_decode_ev :
    decodeTableWord 48 0x0000003F9001 = some (.evEngineEvent 0b111111#6)
      ∧ decodeTableWord 16 0x9002 = some .evIrqHandler
      ∧ decodeTableWord 16 0x9003 = some .evBatchExecute
      ∧ decodeTableWord 16 0x9000 = some (.illegal ⟨0x9000#16, []⟩)
      ∧ decodeTableWord 16 0x800F = some (.illegal ⟨0x800F#16, []⟩)
      ∧ decodeTableWord 16 0x0000 = some (.illegal ⟨0x0000#16, []⟩) := by decide

/-- R98: a one above bit 5 of the event set, and a descriptor without its operand word, are no items. -/
theorem test_decode_rejects :
    decode Config.offsets [0x01#8, 0x90#8, 0x40#8, 0x00#8, 0x00#8, 0x00#8] = .rejected .reservedEventBits
      ∧ decode Config.offsets [0x04#8, 0x20#8, 0x00#8, 0x00#8, 0x00#8] = .rejected .truncated
      ∧ decode Config.offsets [] = .rejected .truncated := by decide

/-- R80, R98: an access to an undefined offset has the operand words of its class: `WR 0x01C, 0x80028002` is one item, and
`start` (0x8002) in its operand is not run; with the word missing it is no item. -/
theorem test_decode_illegal_access :
    decodeTableWord 16 0x101C = some (.illegal ⟨0x101C#16, []⟩)
      ∧ decodeTableWord 48 0x80028002201C = some (.illegal ⟨0x201C#16, [0x80028002#32]⟩)
      ∧ decodeTableWord 80 0x0123456789ABCDEF301C = some (.illegal ⟨0x301C#16, [0x89ABCDEF#32, 0x01234567#32]⟩)
      ∧ decodeTableWord 48 0x89ABCDEF401C = some (.illegal ⟨0x401C#16, [0x89ABCDEF#32]⟩)
      ∧ decodeTableWord 80 0x0123456789ABCDEF501C = some (.illegal ⟨0x501C#16, [0x89ABCDEF#32, 0x01234567#32]⟩)
      ∧ decode Config.offsets [0x1C#8, 0x20#8, 0x02#8, 0x80#8] = .rejected .truncated
      ∧ after (step (ready.withFetchWord 48 0x80028002201C))
        (fun t => t.stream == [] && t.regs == ready.regs && t.faults == [.undefinedRegister 0x01C#12]) = true := by decide

/-- R6, R21, R63: the offsets are parameters. With `FIFO_CON` at 0x044, `RD 0x044` reads it and `RD 0x040` is undefined. -/
theorem test_decode_moved_offset :
    decode { Config.offsets with fifoCon := 0x044#12 } [0x44#8, 0x10#8] = .item .rdFifoCon []
      ∧ decode { Config.offsets with fifoCon := 0x044#12 } [0x40#8, 0x10#8] = .item (.illegal ⟨0x1040#16, []⟩) []
      ∧ decodeTableWord 16 0x1044 = some (.illegal ⟨0x1044#16, []⟩) := by decide

/-- With `GLOBAL_CON` at 0x050 and the clock off, `start` faults there; the bus address is `P_BASE` plus the offset. -/
theorem test_moved_offset_faults :
    after
      (exec .opStart
        { State.reset with
          params := { Params.default with base := 0x14000000#32, offsets := { Config.offsets with globalCon := 0x050#12 } } })
      (fun t => t.faults == [.unclockedAccess 0x050#12] && busAddress t.params .globalCon == 0x14000050#32) = true := by
  decide

/-- R80, R98: the bytes of `WR FIFO_CON, 0x82000166`, and what stands after an item is left. -/
theorem test_encode_wr :
    encode Config.offsets (.wrFifoCon 0x82000166#32) = [0x40#8, 0x20#8, 0x66#8, 0x01#8, 0x00#8, 0x82#8]
      ∧ decode Config.offsets [0x40#8, 0x20#8, 0x66#8, 0x01#8, 0x00#8, 0x82#8, 0x02#8]
        = .item (.wrFifoCon 0x82000166#32) [0x02#8] := by decide

/-- R99: the text of an item. -/
theorem test_assembler_text :
    assemblerText (.opConfigureGeometry 1920#32 1080#32 60#32 8#32 0#32)
        = some "configure_geometry(1920, 1080, 60, 8, 0)"
      ∧ assemblerText (.wrmSizeCon0 0#32 1#32) = some "WRM SIZE_CON_0, 0, 1" := by decide

/-! ## Register accesses (T-A of 95_test_vectors.md) -/

/-- P5: every position of `FIFO_CON` is named, so a read draws nothing into the word. -/
theorem test_rd_fifo_con :
    after
      (exec .rdFifoCon
        { ready with regs := storeFields .fifoCon 0x810000B3#32 ready.regs })
      (fun t => t.caller.ret == .word 0x810000B3#32) = true := by decide

/-- R78: a read with the clock off records `UnclockedAccess(0x010)`. -/
theorem test_rd_unclocked :
    after (exec .rdGlobalCon State.reset) (fun t => t.faults == [.unclockedAccess 0x010#12] && t.history == []) = true := by
  decide

/-- R63, R82: `RD 0x008` and the misaligned `RD 0x002` are accesses to undefined registers. -/
theorem test_rd_undefined :
    after (exec (.illegal ⟨0x1008#16, []⟩) ready) (fun t => t.faults == [.undefinedRegister 0x008#12] && t.refused) = true
      ∧ after (exec (.illegal ⟨0x1002#16, []⟩) ready) (fun t => t.faults == [.undefinedRegister 0x002#12]) = true := by decide

/-- R97: an illegal operation number sets the mark, and records no fault. -/
theorem test_illegal_operation :
    after (exec (.illegal ⟨0x800F#16, []⟩) ready) (fun t => t.faults == [] && t.refused) = true := by decide

/-- `WR SIZE_CON_1, 0xFFFFFFFF` stores the low twenty bits; `WR MEM_START_ADDR, 0xDEADBEEF` stores them all. -/
theorem test_wr_fields :
    after (exec (.wrSizeCon1 0xFFFFFFFF#32) ready) (fun t => t.regs.height == 0xFFFFF#20) = true
      ∧ after (exec (.wrMemStartAddr 0xDEADBEEF#32) ready) (fun t => t.regs.startAddr == 0xDEADBEEF#32) = true := by
  decide

/-- `WR INT_STATUS, 0x0` clears six ones; `WR INT_STATUS, 0x4` is refused and changes no bit. -/
theorem test_wr_int_status :
    after (exec (.wrIntStatus 0#32) { ready with regs := { ready.regs with intStatus := 0b111111#6 } })
        (fun t => t.regs.intStatus == 0#6 && !t.refused) = true
      ∧ after (exec (.wrIntStatus 4#32) { ready with regs := { ready.regs with intStatus := 0b111111#6 } })
        (fun t => t.regs.intStatus == 0b111111#6 && t.refused && t.caller.ret == .refused .nonzeroStatusWrite)
        = true := by decide

/-- `WRM SIZE_CON_0, 1920, 0xFFF` at fields 0, 1, 6 keeps the two others. -/
theorem test_wrm_size_con_0 :
    after
      (exec (.wrmSizeCon0 1920#32 0xFFF#32)
        { ready with regs := { ready.regs with matrixEnable := 1#1, mtxSel := 6#4 } })
      (fun t => regWord .sizeCon0 t.regs == 0x00620780#32) = true := by decide

/-- `WRM GLOBAL_CON` of all ones under a mask of all ones, and a mask of 0. -/
theorem test_wrm_global_con :
    after (exec (.wrmGlobalCon 0xFFFFFFFF#32 0xFFFFFFFF#32) ready) (fun t => regWord .globalCon t.regs == 3#32) = true
      ∧ after (exec (.wrmGlobalCon 0xFFFFFFFF#32 0#32) ready) (fun t => t.regs == ready.regs) = true := by decide

/-- `WRM INT_STATUS, 0x0, 0x4` is refused. -/
theorem test_wrm_int_status :
    after (exec (.wrmIntStatus 0#32 4#32) ready) (fun t => t.caller.ret == .refused .maskedStatusWrite) = true := by
  decide

/-- `BWR MEM_START_ADDR, 0x1000` appends its entry, also with the clock off, and changes no register. -/
theorem test_bwr :
    after (exec (.bwrMemStartAddr 0x1000#32) recordingEmpty)
        (fun t => t.batch == .recording [.write .memStartAddr 0x1000#32] && t.regs == ready.regs) = true
      ∧ after (exec (.bwrFifoCon 0#32) { recordingEmpty with clkCount := 0 })
        (fun t => t.batch == .recording [.write .fifoCon 0#32] && t.faults == []) = true := by decide

/-- With no batch `BWR` is refused `NoOpenBatch`; with a submitted one `BWRM` is refused `AppendAfterSubmit`. -/
theorem test_record_refused :
    after (exec (.bwrMemStartAddr 0x1000#32) ready) (fun t => t.caller.ret == .refused .noOpenBatch) = true
      ∧ after (exec (.bwrmGlobalCon 2#32 2#32) { ready with batch := .submitted [] })
        (fun t => t.caller.ret == .refused .appendAfterSubmit) = true := by decide

/-! ## Format translator and FIFO sizing (T-F, T-Q) -/

/-- L1-8 and the corner rows of T-F: VYUY, 0 and all ones take the default. -/
theorem test_translate :
    translateFormat 0x34324142#32 = ⟨.argb8888, 1#1, false⟩ ∧ translateFormat 0x59565955#32 = ⟨.uyvy, 0#1, true⟩
      ∧ translateFormat 0x59555956#32 = ⟨.rgb565, 0#1, false⟩ ∧ translateFormat 0#32 = ⟨.rgb565, 0#1, false⟩
      ∧ translateFormat 0xFFFFFFFF#32 = ⟨.rgb565, 0#1, false⟩ := by decide

/-- R95: the codes are the four characters, the first lowest. -/
theorem test_fourcc :
    fourcc 'R' 'G' '1' '6' = formatCode .rgb565 ∧ fourcc 'X' 'R' '2' '4' = formatCode .xrgb8888
      ∧ fourcc 'U' 'Y' 'V' 'Y' = formatCode .uyvy ∧ fourcc 'Y' 'U' 'Y' 'V' = formatCode .yuyv := by decide

/-- T-Q: the words at the boundary capacities. -/
theorem test_fifo_word :
    fifoWord 1#32 = 0x80000000#32 ∧ fifoWord 22#32 = 0x80010000#32 ∧ fifoWord 23#32 = 0x80010001#32
      ∧ fifoWord 1000#32 = 0x803E002B#32 ∧ fifoWord 8192#32 = 0x82000166#32
      ∧ fifoWord 524287#32 = 0xFFFF5999#32 := by decide

/-- R150: precedence and bounds. -/
theorem test_resolve :
    resolveCapacity 0#32 8192#32 = some 8192#32 ∧ resolveCapacity 4096#32 8192#32 = some 4096#32
      ∧ resolveCapacity 1#32 8192#32 = some 1#32 ∧ resolveCapacity 524288#32 8192#32 = none
      ∧ resolveCapacity 0#32 0#32 = none ∧ resolveCapacity 524287#32 0#32 = some 524287#32 := by decide

/-- L1-6: `compute_fifo_params(8192)`; exact beyond 32 bits at the largest word (R151). -/
theorem test_compute_fifo_params :
    after (exec (.opComputeFifoParams 8192#32) ready) (fun t => t.caller.ret == .fifoParams 512 358) = true
      ∧ after (exec (.opComputeFifoParams 0xFFFFFFFF#32) ready)
        (fun t => t.caller.ret == .fifoParams 268435455 187904819) = true := by decide

/-! ## Device control (T-D) -/

/-- `configure_geometry(1920, 1080, 60, 8, 0)` at selector 6 and matrix enabled. -/
theorem test_configure_geometry :
    after
      (exec (.opConfigureGeometry 1920#32 1080#32 60#32 8#32 0#32)
        { ready with regs := { ready.regs with matrixEnable := 1#1, mtxSel := 6#4 } })
      (fun t => regWord .sizeCon0 t.regs == 0x00620780#32 && t.regs.height == 0x438#20
        && regWord .fifoCon t.regs == 0x82000166#32) = true := by decide

/-- P1's variant: with the clock off the first access faults and nothing after it runs. -/
theorem test_configure_geometry_unclocked :
    after (exec (.opConfigureGeometry 1920#32 1080#32 60#32 8#32 0#32) State.reset)
      (fun t => t.faults == [.unclockedAccess 0x014#12] && t.regs == State.reset.regs && t.caller.todo == []) = true := by
  decide

/-- L1-7: UYVY enables the matrix and selects BT.601; RGB565 after it keeps the selector and disables the matrix. -/
theorem test_configure_layer :
    after
      (exec (.opConfigureLayer 0#32 0x90000000#32 0x12345#32 0x59565955#32 0#32)
        { ready with regs := { ready.regs with width := 0x780#12 } })
      (fun t => regWord .sizeCon0 t.regs == 0x00620780#32 && t.regs.pitch == 0x2345#16
        && t.regs.gmc == 0x40402020#32 && regWord .memCon t.regs == 0x40#32 && t.regs.modeMemory == 1#1) = true
    ∧ after
      (exec (.opConfigureLayer 0#32 0x90000000#32 0x12345#32 0x36314752#32 0#32)
        { ready with regs := { ready.regs with width := 0x780#12, matrixEnable := 1#1, mtxSel := 6#4 } })
      (fun t => regWord .sizeCon0 t.regs == 0x00600780#32) = true := by decide

/-- A layer other than 0 is refused with no register written. -/
theorem test_configure_layer_index :
    after (exec (.opConfigureLayer 1#32 0#32 0#32 0x36314752#32 0#32) ready)
      (fun t => t.caller.ret == .refused .layerIndexNonzero && t.regs == ready.regs && t.history == []) = true := by
  decide

/-- `disable_vblank` keeps a pending FRAME_END status, and the line falls. -/
theorem test_disable_vblank :
    after (exec .opDisableVblank { running with regs := { running.regs with intStatus := 0b000100#6 } })
      (fun t => t.regs.intEnable == 0#6 && t.regs.intStatus == 0b000100#6 && !lineAsserted t.regs) = true := by decide

/-- R244: `enable_vblank` over a stale status asserts the line at once. -/
theorem test_enable_vblank :
    after (exec .opEnableVblank { ready with regs := { ready.regs with intStatus := 0b000100#6 } })
      (fun t => t.regs.intEnable == 0b000100#6 && irqState t.regs == .signaled) = true := by decide

/-- `start` and `stop` at `MODE_MEMORY` 1. -/
theorem test_start_stop :
    after (exec .opStart { ready with regs := { ready.regs with modeMemory := 1#1 } })
        (fun t => regWord .globalCon t.regs == 3#32) = true
      ∧ after (exec .opStop { running with regs := { running.regs with modeMemory := 1#1 } })
        (fun t => regWord .globalCon t.regs == 2#32) = true := by decide

/-- A callback replaces another one whole. -/
theorem test_register_callback :
    after (exec (.opRegisterCallback 3#32 4#32) { ready with callback := some someCallback })
        (fun t => t.callback == some { fn := 3#32, ctx := 4#32 }) = true
      ∧ after (exec .opClearCallback { ready with callback := some someCallback }) (fun t => t.callback == none)
        = true := by decide

/-- `clock_enable` with answer true at count 1, and with answer false at count 0. -/
theorem test_clock_enable :
    after (exec .opClockEnable { ready with clockAnswers := [true] }) (fun t => t.clkCount == 2) = true
      ∧ after (exec .opClockEnable { State.reset with clockAnswers := [false] })
        (fun t => t.clkCount == 0 && t.caller.ret == .error .clockAcquisitionFailure) = true := by decide

/-- `clock_disable` at count 1 and at count 0. -/
theorem test_clock_disable :
    after (exec .opClockDisable ready) (fun t => t.clkCount == 0) = true
      ∧ after (exec .opClockDisable State.reset) (fun t => t.caller.ret == .refused .clockUnderflow) = true := by decide

/-- The default list of formats, in order. -/
theorem test_query_supported_formats :
    after (exec .opQuerySupportedFormats ready)
      (fun t => t.caller.ret == .formats [0x34325258#32, 0x36314752#32]) = true := by decide

/-- `batch_begin` over an open batch is refused; `batch_submit` of an open one submits it. -/
theorem test_batch_begin_submit :
    after (exec .opBatchBegin recordingEmpty) (fun t => t.caller.ret == .refused .overlappingBatch) = true
      ∧ after (exec .opBatchSubmit recordingEmpty) (fun t => t.batch == .submitted []) = true := by decide

/-- P2: `configure_layer` of UYVY into an open batch records seven entries. -/
theorem test_configure_layer_batched :
    after (exec (.opConfigureLayer 0#32 0x90000000#32 0xF00#32 0x59565955#32 1#32) recordingEmpty)
      (fun t => t.batch == .recording
        [.write .memCon 0x40#32, .writeMasked .sizeCon0 0x20000#32 0x20000#32,
         .writeMasked .sizeCon0 0x600000#32 0xF00000#32, .write .memStartAddr 0x90000000#32,
         .write .memSrcPitch 0xF00#32, .write .memGmcSetting0 0x40402020#32, .writeMasked .globalCon 2#32 2#32])
      = true := by decide

/-- Late merge: the masked entry merges with the register as it stands at execution. -/
theorem test_batch_execute :
    after
      (exec .evBatchExecute
        { ready with
          regs := { ready.regs with width := 0x200#12 },
          batch := .submitted [.writeMasked .sizeCon0 0x20000#32 0x20000#32] })
      (fun t => t.regs.width == 0x200#12 && t.regs.matrixEnable == 1#1 && t.batch == .noBatch) = true := by decide

/-! ## Interrupts and the handler (T-I) -/

/-- An event of sources that are not enabled sets their bits and leaves the line idle. -/
theorem test_engine_event :
    after (exec (.evEngineEvent 0b010001#6) running)
      (fun t => t.regs.intStatus == 0b010001#6 && irqState t.regs == .idle) = true := by decide

/-- With the engine stopped and `P_EVENTS_WHILE_STOPPED` false there is no step. -/
theorem test_engine_event_not_enabled :
    after (exec (.evEngineEvent 4#6) { ready with params := { ready.params with eventsWhileStopped := false } })
      (fun _ => true) = false := by decide

/-- A handler run with a callback: status cleared, one notification, HANDLED. -/
theorem test_irq_handler :
    after
      (exec .evIrqHandler
        { ready with callback := some someCallback, regs := { ready.regs with intStatus := 0b010101#6 } })
      (fun t => t.regs.intStatus == 0#6
        && t.history == [writeEvent .irq .intStatus 0#32, .notify 0x2000#32, .handlerReturn .handled]) = true := by decide

/-- A body that stops the engine and then asks for the clock, which is refused there (R180, R207). -/
theorem test_irq_handler_body :
    after
      (exec .evIrqHandler
        { running with
          callback := some someCallback,
          params := { running.params with bodies := [(someCallback, [.stop, .clockEnable])] } })
      (fun t => t.regs.engineEn == 0#1 && t.refused && t.clkCount == 1 && t.irq.ret == .handler .handled) = true := by
  decide

/-- Reset meets the invariant; it is what bind makes of the open parameters' values (R230 to R232). -/
theorem reset_inv : Inv State.reset := ⟨by decide, by decide, by decide, rfl⟩

/-- R231: of an all-ones draw, bind leaves only FRAME_END among the enables. R211: no register space, no instance. -/
theorem test_bind :
    bindInstance ⟨{ Regs.zero with intEnable := 0b111111#6 }, Params.default, State.reset.variant, true, true, true,
          .value 4096#32, false⟩
        = .bound
          (State.instantiate { Regs.zero with intEnable := 0b111111#6 } Params.default State.reset.variant 4096#32 false)
          none
      ∧ ({ Regs.zero with intEnable := 0b111111#6 } : Regs).atReset.intEnable = 0b000100#6
      ∧ bindInstance ⟨Regs.zero, Params.default, State.reset.variant, true, false, true, .absent, false⟩
        = .failed .resourceUnavailable := by decide

/-! ## Witnesses: a state and operands that meet the hypotheses of each obligation -/

/-- A quiet state with the clock on, and one with the clock off. -/
theorem test_witness_ReadCompletes :
    Quiet ready ∧ 0 < ready.clkCount ∧ Quiet State.reset ∧ State.reset.clkCount = 0 :=
  ⟨⟨rfl, rfl⟩, by decide, ⟨rfl, rfl⟩, rfl⟩

/-- A quiet state of each clause; the registers at the two ends of the order. -/
theorem test_witness_WriteCompletes :
    (Reg.intEnable ≠ .intStatus ∧ Reg.memStartAddr ≠ .intStatus)
    ∧ Quiet ready ∧ 0 < ready.clkCount ∧ Quiet State.reset ∧ State.reset.clkCount = 0 :=
  ⟨by decide, ⟨rfl, rfl⟩, by decide, ⟨rfl, rfl⟩, rfl⟩

/-- A quiet state of each clause. -/
theorem test_witness_StatusWriteClearsOrIsRefused :
    Quiet ready ∧ 0 < ready.clkCount ∧ Quiet State.reset ∧ State.reset.clkCount = 0 :=
  ⟨⟨rfl, rfl⟩, by decide, ⟨rfl, rfl⟩, rfl⟩

/-- A quiet state of each clause. -/
theorem test_witness_MaskedWriteCompletes :
    Reg.sizeCon0 ≠ .intStatus ∧ Quiet ready ∧ 0 < ready.clkCount ∧ Quiet State.reset ∧ State.reset.clkCount = 0 :=
  ⟨by decide, ⟨rfl, rfl⟩, by decide, ⟨rfl, rfl⟩, rfl⟩

/-- A quiet state. -/
theorem test_witness_MaskedStatusWriteRefused :
    Quiet ready :=
  ⟨rfl, rfl⟩

/-- A caller and an interrupt context between their two transactions. -/
theorem test_witness_MaskedWriteUndoesChangeBetween :
    (thread .caller { ready with caller := ⟨[.maskedWrite .globalCon 1#32 1#32], 0#32, .ok⟩ }).todo
        = [.maskedWrite .globalCon 1#32 1#32]
      ∧ (thread .irq { ready with irq := ⟨[.maskedWrite .sizeCon0 1#32 1#32, .clockDisable], 0#32, .ok⟩ }).todo
        = [.maskedWrite .sizeCon0 1#32 1#32, .clockDisable]
      ∧ Reg.globalCon ≠ .intStatus ∧ Reg.sizeCon0 ≠ .intStatus ∧ 0 < ready.clkCount := by
  decide

/-- A quiet state in each state of the batch. -/
theorem test_witness_RecordWrite :
    Quiet ready ∧ Quiet recordingEmpty ∧ Quiet { ready with batch := .submitted [] } :=
  ⟨⟨rfl, rfl⟩, ⟨rfl, rfl⟩, rfl, rfl⟩

/-- A quiet state in each state of the batch. -/
theorem test_witness_RecordMaskedWrite :
    Quiet ready ∧ Quiet recordingEmpty ∧ Quiet { ready with batch := .submitted [] } :=
  ⟨⟨rfl, rfl⟩, ⟨rfl, rfl⟩, rfl, rfl⟩

/-- A word that is no named format's code. -/
theorem test_witness_TranslateRows :
    ∀ f : PixelFormat, (0x59555956#32 : Word) ≠ formatCode f :=
  by intro f; cases f <;> decide

/-- A quiet state. -/
theorem test_witness_TranslateCompletes :
    Quiet ready :=
  ⟨rfl, rfl⟩

/-- A quiet state. -/
theorem test_witness_ComputeFifoParamsCompletes :
    Quiet ready :=
  ⟨rfl, rfl⟩

/-- Both choices of the source, and the four boundary capacities. -/
theorem test_witness_ResolveCapacityCompletes :
    Quiet ready ∧ ready.fifoOverride = 0#32 ∧ Quiet { ready with fifoOverride := 524287#32 }
      ∧ after (exec .opResolveFifoCapacity { ready with fifoOverride := 1#32 })
        (fun t => t.caller.ret == .capacity 1#32) = true
      ∧ after (exec .opResolveFifoCapacity { ready with fifoOverride := 524287#32 })
        (fun t => t.caller.ret == .capacity 524287#32) = true
      ∧ after (exec .opResolveFifoCapacity { ready with fifoOverride := 524288#32 }) (fun t => t.refused) = true
      ∧ after (exec .opResolveFifoCapacity { ready with variant := ⟨0#32, []⟩ }) (fun t => t.refused) = true :=
  ⟨⟨rfl, rfl⟩, rfl, ⟨rfl, rfl⟩, by decide⟩

/-- The smallest and the largest admitted capacity. -/
theorem test_witness_FifoWordParts :
    (0 < (1#32).toNat ∧ (1#32).toNat < 2 ^ 19) ∧ 0 < (524287#32).toNat ∧ (524287#32).toNat < 2 ^ 19 := by
  decide

/-- A quiet state with the clock on, and one with the clock off. -/
theorem test_witness_StartSetsEngineEnable :
    Quiet ready ∧ 0 < ready.clkCount ∧ Quiet State.reset ∧ State.reset.clkCount = 0 :=
  ⟨⟨rfl, rfl⟩, by decide, ⟨rfl, rfl⟩, rfl⟩

/-- A quiet state with the clock on, and one with the clock off. -/
theorem test_witness_StopClearsEngineEnable :
    Quiet ready ∧ 0 < ready.clkCount ∧ Quiet State.reset ∧ State.reset.clkCount = 0 :=
  ⟨⟨rfl, rfl⟩, by decide, ⟨rfl, rfl⟩, rfl⟩

/-- A quiet state with the clock on, and one with the clock off. -/
theorem test_witness_EnableVblankSetsFrameEnd :
    Quiet ready ∧ 0 < ready.clkCount ∧ Quiet State.reset ∧ State.reset.clkCount = 0 :=
  ⟨⟨rfl, rfl⟩, by decide, ⟨rfl, rfl⟩, rfl⟩

/-- A quiet state with the clock on, and one with the clock off. -/
theorem test_witness_DisableVblankClearsFrameEnd :
    Quiet ready ∧ 0 < ready.clkCount ∧ Quiet State.reset ∧ State.reset.clkCount = 0 :=
  ⟨⟨rfl, rfl⟩, by decide, ⟨rfl, rfl⟩, rfl⟩

/-- A quiet state. -/
theorem test_witness_CallbackSlotReplaced :
    Quiet ready :=
  ⟨rfl, rfl⟩

/-- A quiet state of each clause: an admitted capacity, the least one out of range, and the clock off. -/
theorem test_witness_GeometryImmediate :
    Quiet ready ∧ 0 < ready.clkCount
      ∧ resolveCapacity ready.fifoOverride ready.variant.fifoCapacity = some 8192#32
      ∧ Quiet { ready with fifoOverride := 524288#32 }
      ∧ resolveCapacity ({ ready with fifoOverride := 524288#32 } : State).fifoOverride ready.variant.fifoCapacity = none
      ∧ after (exec (.opConfigureGeometry 1920#32 1080#32 60#32 8#32 0#32) { ready with fifoOverride := 524288#32 })
        (fun t => t.regs.width == 0x780#12 && t.regs.height == 0x438#20 && regWord .fifoCon t.regs == 0#32
          && t.caller.ret == .refused .capacityOutOfRange) = true
      ∧ Quiet State.reset ∧ State.reset.clkCount = 0 :=
  ⟨⟨rfl, rfl⟩, by decide, by decide, ⟨rfl, rfl⟩, by decide, by decide, ⟨rfl, rfl⟩, rfl⟩

/-- A quiet state with an open batch, at an admitted capacity and at one out of range. -/
theorem test_witness_GeometryBatched :
    Quiet recordingEmpty ∧ recordingEmpty.batchCapable = true ∧ recordingEmpty.batch = .recording []
      ∧ resolveCapacity recordingEmpty.fifoOverride recordingEmpty.variant.fifoCapacity = some 8192#32
      ∧ Quiet { recordingEmpty with variant := ⟨0#32, []⟩ }
      ∧ resolveCapacity recordingEmpty.fifoOverride (⟨0#32, []⟩ : Variant).fifoCapacity = none
      ∧ after
        (exec (.opConfigureGeometry 1920#32 1080#32 60#32 8#32 1#32) { recordingEmpty with variant := ⟨0#32, []⟩ })
        (fun t => t.refused && t.batch == .recording
          [.writeMasked .sizeCon0 1920#32 0xFFF#32, .writeMasked .sizeCon1 1080#32 0xFFFFF#32]) = true :=
  ⟨⟨rfl, rfl⟩, rfl, rfl, by decide, ⟨rfl, rfl⟩, by decide, by decide⟩

/-- `ready`, with a submitted batch of one entry. -/
def submittedOne : State := { ready with batch := .submitted [.write .fifoCon 0#32] }

/-- A state of each reason and operands of it: not capable; no open batch (none, and a submitted one that has an entry);
2, the least operand that is neither 0 nor 1; layer 1 with no batch and with an open one. -/
theorem test_witness_ConfigureRefusedBeforeAnyWrite :
    (Quiet { ready with batchCapable := false } ∧ ({ ready with batchCapable := false } : State).batchCapable = false)
      ∧ (Quiet ready ∧ ready.batchCapable = true ∧ ∀ es, ready.batch ≠ .recording es)
      ∧ (Quiet submittedOne ∧ submittedOne.batchCapable = true ∧ ∀ es, submittedOne.batch ≠ .recording es)
      ∧ (Quiet recordingEmpty ∧ (2#32 : Word) ≠ 0#32 ∧ (2#32 : Word) ≠ 1#32 ∧ (1#32 : Word) ≠ 0#32)
      ∧ after (exec (.opConfigureGeometry 1#32 1#32 0#32 0#32 1#32) { ready with batchCapable := false })
        (fun t => t.caller.ret == .refused .batchNotCapable) = true
      ∧ after (exec (.opConfigureGeometry 1#32 1#32 0#32 0#32 1#32) submittedOne)
        (fun t => t.caller.ret == .refused .noOpenBatch && t.batch == submittedOne.batch) = true
      ∧ after (exec (.opConfigureGeometry 1#32 1#32 0#32 0#32 2#32) ready)
        (fun t => t.caller.ret == .refused .badOperand) = true
      ∧ after (exec (.opConfigureLayer 1#32 0#32 0#32 0#32 0#32) ready)
        (fun t => t.caller.ret == .refused .layerIndexNonzero && t.regs == ready.regs) = true
      ∧ after (exec (.opConfigureLayer 1#32 0#32 0#32 0#32 1#32) recordingEmpty)
        (fun t => t.caller.ret == .refused .layerIndexNonzero && t.batch == .recording []) = true :=
  ⟨⟨⟨rfl, rfl⟩, rfl⟩, ⟨⟨rfl, rfl⟩, rfl, by intro es h; cases h⟩, ⟨⟨rfl, rfl⟩, rfl, by intro es h; cases h⟩,
    ⟨⟨rfl, rfl⟩, by decide⟩, by decide⟩

/-- A quiet state with the clock on, one with the clock off, and UYVY. -/
theorem test_witness_LayerImmediateYuv :
    Quiet ready ∧ 0 < ready.clkCount ∧ Quiet State.reset ∧ State.reset.clkCount = 0 ∧ (translateFormat 0x59565955#32).needsColorMatrix = true
      ∧ after (exec (.opConfigureLayer 0#32 0#32 0#32 0x59565955#32 0#32) State.reset)
        (fun t => t.faults == [.unclockedAccess 0x024#12] && t.regs == State.reset.regs) = true :=
  ⟨⟨rfl, rfl⟩, by decide, ⟨rfl, rfl⟩, rfl, by decide⟩

/-- A quiet state with the clock on, one with the clock off, and RGB565. -/
theorem test_witness_LayerImmediateRgb :
    Quiet ready ∧ 0 < ready.clkCount ∧ Quiet State.reset ∧ State.reset.clkCount = 0 ∧ (translateFormat 0x36314752#32).needsColorMatrix = false
      ∧ after (exec (.opConfigureLayer 0#32 0#32 0#32 0x36314752#32 0#32) State.reset)
        (fun t => t.faults == [.unclockedAccess 0x024#12] && t.regs == State.reset.regs) = true :=
  ⟨⟨rfl, rfl⟩, by decide, ⟨rfl, rfl⟩, rfl, by decide⟩

/-- A quiet state with an open batch. -/
theorem test_witness_LayerBatched :
    Quiet recordingEmpty ∧ recordingEmpty.batchCapable = true ∧ recordingEmpty.batch = .recording [] :=
  ⟨⟨rfl, rfl⟩, rfl, rfl⟩

/-- A quiet state with an answer placed, and one with none. -/
theorem test_witness_ClockEnableCompletes :
    Quiet { ready with clockAnswers := [false] } ∧ Quiet ready ∧ ready.clockAnswers = [] :=
  ⟨⟨rfl, rfl⟩, ⟨rfl, rfl⟩, rfl⟩

/-- A quiet state at count 1, and one at count 0. -/
theorem test_witness_ClockDisableCompletes :
    Quiet ready ∧ 0 < ready.clkCount ∧ Quiet State.reset ∧ State.reset.clkCount = 0 :=
  ⟨⟨rfl, rfl⟩, by decide, ⟨rfl, rfl⟩, rfl⟩

/-- A callback body about to ask for the clock. -/
theorem test_witness_ClockEnableRefusedInIrq :
    ({ ready with irq := ⟨[.clockEnable], 0#32, .nothing⟩ } : State).irq.todo = [.clockEnable] :=
  rfl

/-- A quiet state. -/
theorem test_witness_QueryFormatsCompletes :
    Quiet ready :=
  ⟨rfl, rfl⟩

/-- A quiet state of each clause. -/
theorem test_witness_BatchBeginCompletes :
    Quiet ready ∧ (ready.batchCapable = true ∧ ready.batch = .noBatch)
      ∧ Quiet recordingEmpty ∧ recordingEmpty.batch ≠ .noBatch ∧ Quiet { ready with batchCapable := false } :=
  ⟨⟨rfl, rfl⟩, ⟨rfl, rfl⟩, ⟨rfl, rfl⟩, by decide, rfl, rfl⟩

/-- A quiet state in each state of the batch. -/
theorem test_witness_BatchSubmitCompletes :
    Quiet ready ∧ Quiet recordingEmpty ∧ Quiet { ready with batch := .submitted [] } :=
  ⟨⟨rfl, rfl⟩, ⟨rfl, rfl⟩, rfl, rfl⟩

/-- A submitted batch of admitted entries with the clock on, and one with no entry and the clock off. -/
theorem test_witness_BatchExecuteAppliesInOrder :
    (BatchAdmitted { ready with batch := .submitted [.write .intStatus 0#32, .writeMasked .globalCon 2#32 2#32] }
      ∧ 0 < ready.clkCount)
      ∧ BatchAdmitted { State.reset with batch := .submitted [] }
      ∧ after (exec .evBatchExecute { State.reset with batch := .submitted [] })
        (fun t => t.batch == .noBatch && t.faults == [] && t.history == [.batchApplied []]) = true := by
  decide

/-- A submitted batch with the clock off, and no submitted batch. -/
theorem test_witness_BatchExecuteUnclockedOrNotEnabled :
    (∃ e es, ({ State.reset with batch := .submitted [.write .fifoCon 0#32] } : State).batch = .submitted (e :: es))
      ∧ State.reset.clkCount = 0 ∧ ∀ es, ready.batch ≠ .submitted es :=
  ⟨⟨_, _, rfl⟩, rfl, by intro es h; cases h⟩

/-- No run in progress, the clock on, no callback. -/
theorem test_witness_HandlerWithoutCallback :
    HandlerQuiet ready ∧ 0 < ready.clkCount ∧ ready.callback = none :=
  ⟨⟨rfl, rfl⟩, by decide, rfl⟩

/-- `running`, with a callback that has a body. -/
def bodied (ops : List CtrlOp) : State :=
  { running with callback := some someCallback, params := { running.params with bodies := [(someCallback, ops)] } }

/-- No run in progress, the clock on and a callback: with an empty body, with one in which nothing faults (its
clock_enable is refused), and with one that faults at `start` after giving up the clock. -/
theorem test_witness_HandlerNotifies :
    HandlerQuiet { ready with callback := some someCallback } ∧ 0 < ready.clkCount
      ∧ callbackBody ready.params someCallback = []
      ∧ HandlerQuiet (bodied [.clockEnable, .stop]) ∧ HandlerQuiet (bodied [.clockDisable, .start])
      ∧ callbackBody (bodied [.clockDisable, .start]).params someCallback = [.clockDisable, .start]
      ∧ bodyFault 1 [.clockEnable, .stop] = none ∧ bodyFault 1 [.clockDisable, .start] = some .globalCon
      ∧ after (exec .evIrqHandler (bodied [.clockEnable, .stop]))
        (fun t => t.refused && t.regs.engineEn == 0#1 && t.irq.ret == .handler .handled) = true
      ∧ after (exec .evIrqHandler (bodied [.clockDisable, .start]))
        (fun t => t.faults == [.unclockedAccess 0x010#12]
          && t.history == [writeEvent .irq .intStatus 0#32, .notify 0x2000#32]) = true :=
  ⟨⟨rfl, rfl⟩, by decide, by decide, ⟨rfl, rfl⟩, ⟨rfl, rfl⟩, by decide, by decide, by decide, by decide, by decide⟩

/-- No run in progress, the clock off. -/
theorem test_witness_HandlerUnclocked :
    HandlerQuiet State.reset ∧ State.reset.clkCount = 0 :=
  ⟨⟨rfl, rfl⟩, rfl⟩

/-- A run with a callback whose body has two operations, and its next state. -/
theorem test_witness_HandlerNotifiesOnce :
    HandlerQuiet (bodied [.stop, .clockDisable]) ∧ 0 < running.clkCount
      ∧ after (exec .evIrqHandler (bodied [.stop, .clockDisable]))
        (fun t => t.clkCount == 0 && t.regs.engineEn == 0#1) = true :=
  ⟨⟨rfl, rfl⟩, by decide, by decide⟩

/-- A run at its first step, and one in its body. -/
theorem test_witness_HandlerRunsDoNotOverlap :
    ({ ready with phase := .clear } : State).phase ≠ .idle ∧ ({ ready with phase := .body [] } : State).phase ≠ .idle := by
  decide

/-- A run about to read a registered slot. -/
theorem test_witness_ClearedCallbackMayStillRun :
    ({ ready with phase := .readSlot, callback := some someCallback } : State).phase = .readSlot
      ∧ ({ ready with phase := .readSlot, callback := some someCallback } : State).callback = some someCallback := by
  decide

/-- Registers and bits that meet each clause's premise. -/
theorem test_witness_IrqStateTransitions :
    (0b000100#6 &&& running.regs.intEnable ≠ 0#6) ∧ (0b000100#6 &&& sourceBit .frameEnd ≠ 0#6)
      ∧ running.regs.intEnable = sourceBit .frameEnd := by
  decide

/-- An event of the engine between two actions of the caller sets a status bit, and the history shows it. -/
theorem test_witness_StatusBitsOnlyFromEngine :
    after
      (step { ready with stream := [0x02#8, 0x80#8], between := [[], [.engineEvent 0b000100#6]] })
      (fun t => t.regs.intStatus == 0b000100#6 && t.history.contains (.engineEvent 0b000100#6)) = true := by
  decide

/-- Classes 0x0, 0x1, 0x5 and 0x6, and what each does to the fault set. -/
theorem test_witness_IllegalSetsRefused :
    (illegalOk 0x0004#16 [] = true ∧ illegalOk 0x1001#16 [] = true ∧ illegalOk 0x5FFF#16 [1#32, 2#32] = true
        ∧ illegalOk 0x6FFF#16 [] = true)
      ∧ after (exec (.illegal ⟨0x0004#16, []⟩) ready) (fun t => t.faults == []) = true
      ∧ after (exec (.illegal ⟨0x1001#16, []⟩) ready) (fun t => t.faults == [.undefinedRegister 0x001#12]) = true
      ∧ after (exec (.illegal ⟨0x5FFF#16, [1#32, 2#32]⟩) ready)
        (fun t => t.faults == [.undefinedRegister 0xFFF#12] && t.refused && t.regs == ready.regs) = true
      ∧ after (exec (.illegal ⟨0x6FFF#16, []⟩) ready) (fun t => t.faults == []) = true := by
  decide

/-- P4's start state. -/
theorem test_witness_LostUpdateBetweenTransactions :
    ready.caller.todo = [] ∧ 0 < ready.clkCount ∧ ready.regs.engineEn = 0#1 ∧ ready.regs.modeMemory = 0#1
      ∧ after
        (exec .opStart
          { ready with
            batch := .submitted [.writeMasked .globalCon 2#32 2#32], between := [[], [], [.batchExecute]] })
        (fun t => regWord .globalCon t.regs == 1#32) = true := by
  decide

/-- A write and then an execution that both complete. -/
theorem test_witness_MaskedEntryMergesLate :
    Quiet { ready with batch := .submitted [.writeMasked .sizeCon0 0x00020000#32 0x00020000#32] } ∧ 0 < ready.clkCount
      ∧ after
        (exec (.wrmSizeCon0 0x200#32 0xFFF#32)
          { ready with batch := .submitted [.writeMasked .sizeCon0 0x00020000#32 0x00020000#32] })
        (fun t => after (exec .evBatchExecute t) fun u => regWord .sizeCon0 u.regs == 0x00020200#32) = true :=
  ⟨⟨rfl, rfl⟩, by decide, by decide⟩

/-- Offsets that are pairwise distinct, the default ones and moved ones, and well-formed illegal items. -/
theorem test_witness_DecodeEncode :
    (registerOffsets Config.offsets).Nodup
      ∧ (registerOffsets { Config.offsets with fifoCon := 0x01C#12, memCon := 0x040#12 }).Nodup
      ∧ illegalOk 0x800F#16 [] = true ∧ illegalOk 0x201C#16 [5#32] = true
      ∧ decode Config.offsets (encode Config.offsets (.illegal ⟨0x201C#16, [5#32]⟩) ++ [7#8])
        = .item (.illegal ⟨0x201C#16, [5#32]⟩) [7#8] := by
  decide

/-- Bytes that begin with an item. -/
theorem test_witness_EncodeDecode :
    decode Config.offsets [0x02#8, 0x80#8, 7#8] = .item .opStart [7#8] := by
  decide

/-- A stream that begins with an item, and an empty one. -/
theorem test_witness_StepRunsDecoded :
    decode ready.params.offsets ({ ready with stream := [0x02#8, 0x80#8] } : State).stream = .item .opStart []
    ∧ ready.stream = [] := by
  decide

/-- A step that has a next state. -/
theorem test_witness_StepExtends :
    after (step ready) (fun _ => true) = true ∧ after (step (ready.withFetchWord 16 0x8002)) (fun t => t.regs.engineEn == 1#1) = true := by
  decide

/-- A state that meets the invariant, with a step that has a next state. -/
theorem test_witness_StepKeepsInvariant :
    Inv ready ∧ after (step (ready.withFetchWord 16 0x8002)) (fun _ => true) = true :=
  ⟨⟨by decide, by decide, by decide, rfl⟩, by decide⟩

/-- An input that bind makes an instance of. -/
theorem test_witness_InvariantAtBind :
    bindInstance ⟨Regs.zero, Params.default, State.reset.variant, true, true, true, .absent, true⟩
      = .bound State.reset none := by
  decide

/-- An input that bind makes an instance of, with a warning. -/
theorem test_witness_BindLeaves :
    bindInstance ⟨Regs.zero, Params.default, State.reset.variant, true, true, true, .unparsable, true⟩
      = .bound State.reset (some .invalidConfigurationData) := by
  decide

/-- No register space, no interrupt line, and both. -/
theorem test_witness_BindErrors :
    bindInstance ⟨Regs.zero, Params.default, State.reset.variant, true, false, true, .absent, true⟩
        = .failed .resourceUnavailable
      ∧ bindInstance ⟨Regs.zero, Params.default, State.reset.variant, true, true, false, .absent, true⟩
        = .failed .resourceUnavailable
      ∧ bindInstance ⟨Regs.zero, Params.default, State.reset.variant, false, true, true, .absent, true⟩
        = .bound State.reset (some .invalidConfigurationData) := by
  decide

end Sys2Proof.Tests
end

/-! # The whole machine: what a step does with the stream (R2, R80) -/

namespace Sys2Proof.Machine

/-- With nothing left to issue, a step is one interleaving point of the other agents. -/
theorem step_of_stream_nil {s : State} (h : s.stream = []) : step s = .next (interleave none s) := by
  simp only [step, h]

/-- Bytes that begin with an item are not empty: an item has a descriptor (R80). -/
theorem ne_nil_of_decode_item {o : Offsets} {bs rest : List Byte} {i : Instr} (h : decode o bs = .item i rest) :
    bs ≠ [] := by
  rintro rfl
  cases h

/-- Where the stream begins with an item, a step executes it with the stream past it. -/
theorem step_of_decode_item {s : State} {i : Instr} {rest : List Byte}
    (h : decode s.params.offsets s.stream = .item i rest) : step s = exec i { s with stream := rest } := by
  obtain ⟨b, bs, hs⟩ := List.exists_cons_of_ne_nil (ne_nil_of_decode_item h)
  rw [hs] at h
  simp only [step, hs, h]

/-- Settles O55: `step` branches on the stream being empty, and an empty stream decodes to no item. -/
theorem stepRunsDecoded : Obligations.StepRunsDecoded := by
  intro s i rest
  exact ⟨step_of_decode_item, step_of_stream_nil⟩

end Sys2Proof.Machine

/-! # What a bus read returns (R33) -/

namespace Sys2Proof.Machine

/-- One equation for both branches of `readValue`: where every position is named, the draw is masked to 0. -/
theorem readValue_eq (r : Reg) (n : Nat) (g : Regs) :
    readValue r n g = regWord r g ||| (Config.freeWord n &&& unnamedMask r) := by
  by_cases hm : unnamedMask r = 0#32 <;> simp [readValue, hm]

/-- The named fields of a register all stand in named positions. -/
theorem regWord_and_not_unnamedMask (r : Reg) (g : Regs) : regWord r g &&& ~~~unnamedMask r = regWord r g :=
  calc regWord r g &&& ~~~unnamedMask r
      = (regWord r g &&& unnamedMask r) ||| (regWord r g &&& ~~~unnamedMask r) := by
        rw [regWord_and_unnamedMask, BitVec.zero_or]
    _ = regWord r g &&& (unnamedMask r ||| ~~~unnamedMask r) := BitVec.and_or_distrib_left.symm
    _ = regWord r g := by rw [BitVec.or_not_self, BitVec.and_allOnes]

/-- Settles O2: the word and the masked draw stand in complementary positions. -/
theorem readValueNamedAndDrawn : Obligations.ReadValueNamedAndDrawn := by
  intro r n g
  rw [readValue_eq]
  constructor
  · simp [BitVec.and_or_distrib_right, regWord_and_not_unnamedMask, BitVec.and_assoc]
  · simp [BitVec.and_or_distrib_right, regWord_and_unnamedMask, BitVec.and_assoc]

end Sys2Proof.Machine

/-! # What every step keeps of the machine (R35 to R37, R42, R43) and of the status bits (R23, R203) -/

namespace Sys2Proof.Machine

/-- What an action or a batch entry that is done keeps of the machine (R64, R116). Neither records a fault or a
refusal, and neither can set a status bit: the only value `INT_STATUS` accepts is 0 (R112). -/
structure DoneKeeps (s t : State) : Prop where
  variant : t.variant = s.variant
  fifoOverride : t.fifoOverride = s.fifoOverride
  batchCapable : t.batchCapable = s.batchCapable
  params : t.params = s.params
  faults : t.faults = s.faults
  refused : t.refused = s.refused
  history : ∃ es, t.history = s.history ++ es
  status : t.regs.intStatus = s.regs.intStatus ∨ t.regs.intStatus = 0#6

theorem DoneKeeps.refl (s : State) : DoneKeeps s s :=
  ⟨rfl, rfl, rfl, rfl, rfl, rfl, ⟨[], (List.append_nil _).symm⟩, .inl rfl⟩

theorem DoneKeeps.emit {s t : State} (k : DoneKeeps s t) (e : Event) : DoneKeeps s (emit e t) := by
  obtain ⟨es, hes⟩ := k.history
  exact { k with history := ⟨es ++ [e], by rw [emit_history, hes, List.append_assoc]⟩ }

/-- Registers may be replaced where the status stays as it was or becomes 0. -/
theorem doneKeeps_regs {s : State} {g : Regs} (hg : g.intStatus = s.regs.intStatus ∨ g.intStatus = 0#6) :
    DoneKeeps s { s with regs := g } :=
  { DoneKeeps.refl s with status := hg }

/-- What stands in the model's own place of a context is not among what is kept (log entry 13). -/
theorem DoneKeeps.setThread {s t : State} (k : DoneKeeps s t) (c : Context) (x : Thread) :
    DoneKeeps s (setThread c x t) := by
  cases c <;> exact { k with }

theorem doneKeeps_afterRead (c : Context) (r : Reg) (s : State) : DoneKeeps s (afterRead c r s) :=
  DoneKeeps.emit (t := { s with draws := s.draws + 1 }) { DoneKeeps.refl s with } _

theorem doneKeeps_actRead {c : Context} {r : Reg} {s t : State} {ret : Return} (h : actRead c r s = .done t ret) :
    DoneKeeps s t := by
  unfold actRead at h
  split at h <;> cases h
  exact doneKeeps_afterRead c r s

theorem doneKeeps_actWrite {c : Context} {r : Reg} {v : Word} {s t : State} {ret : Return}
    (h : actWrite c r v s = .done t ret) : DoneKeeps s t := by
  unfold actWrite at h
  split at h
  · cases h
  · split at h
    · split at h <;> cases h
      exact (doneKeeps_regs (.inr rfl)).emit _
    · cases h
      exact (doneKeeps_regs (.inl (storeFields_intStatus ‹_› v _))).emit _

theorem doneKeeps_actMaskedRead {c : Context} {r : Reg} {s t : State} {ret : Return}
    (h : actMaskedRead c r s = .done t ret) : DoneKeeps s t := by
  unfold actMaskedRead at h
  split at h
  · cases h
  · split at h <;> cases h
    exact (doneKeeps_afterRead c r s).setThread c _

theorem doneKeeps_actMaskedWrite {c : Context} {r : Reg} {v m : Word} {s t : State} {ret : Return}
    (h : actMaskedWrite c r v m s = .done t ret) : DoneKeeps s t := by
  unfold actMaskedWrite at h
  split at h
  · cases h
  · split at h <;> cases h
    exact (doneKeeps_regs (.inl (storeFields_intStatus ‹_› _ _))).emit _

theorem doneKeeps_actRecord {e : BatchEntry} {s t : State} {ret : Return} (h : actRecord e s = .done t ret) :
    DoneKeeps s t := by
  unfold actRecord at h
  split at h
  · cases h
  · split at h <;> cases h
    exact { DoneKeeps.refl s with }

theorem doneKeeps_actPutFifo {c : Context} {b : Bool} {s t : State} {ret : Return}
    (h : actPutFifo c b s = .done t ret) : DoneKeeps s t := by
  unfold actPutFifo at h
  split at h
  · cases h
  · split at h
    · exact doneKeeps_actRecord h
    · exact doneKeeps_actWrite h

theorem doneKeeps_drawClockAnswer (s : State) : DoneKeeps s (drawClockAnswer s).2 := by
  unfold drawClockAnswer
  split <;> exact { DoneKeeps.refl s with }

theorem doneKeeps_actClockEnable {c : Context} {s t : State} {ret : Return} (h : actClockEnable c s = .done t ret) :
    DoneKeeps s t := by
  cases c with
  | irq => cases h
  | caller =>
    have k := doneKeeps_drawClockAnswer s
    unfold actClockEnable at h
    generalize drawClockAnswer s = d at h k
    obtain ⟨ok, s'⟩ := d
    cases ok <;> cases h
    · exact k.emit _
    · exact DoneKeeps.emit (t := { s' with clkCount := s'.clkCount + 1 }) { k with } _

/-- An action that is done, whichever it is and whatever its context. -/
theorem doneKeeps_of_act {c : Context} {a : Action} {s t : State} {ret : Return} (h : act c a s = .done t ret) :
    DoneKeeps s t := by
  cases a
  case rd r => exact doneKeeps_actRead h
  case wr r v => exact doneKeeps_actWrite h
  case maskedRead r => exact doneKeeps_actMaskedRead h
  case maskedWrite r v m => exact doneKeeps_actMaskedWrite h
  case record e => exact doneKeeps_actRecord h
  case putFifo b => exact doneKeeps_actPutFifo h
  case clockEnable => exact doneKeeps_actClockEnable h
  case setCallback | queryFormats | translate | computeFifoParams =>
    cases h
    exact { DoneKeeps.refl s with }
  case clockDisable | batchBegin | batchSubmit | resolveCapacity =>
    simp only [act, actClockDisable, actBatchBegin, actBatchSubmit, actResolve] at h
    repeat' split at h
    all_goals cases h
    all_goals exact { DoneKeeps.refl s with }

/-- A masked entry that is admitted names another register than `INT_STATUS` (R66). -/
theorem ne_intStatus_of_writeMasked_admitted {r : Reg} {v m : Word} (h : entryRefusal (.writeMasked r v m) = none) :
    r ≠ .intStatus := by
  simpa [entryRefusal] using h

/-- A batch entry that is applied. -/
theorem doneKeeps_of_applyEntry {e : BatchEntry} {s t : State} {ret : Return} (h : applyEntry e s = .done t ret) :
    DoneKeeps s t := by
  cases e with
  | write r v =>
    simp only [applyEntry] at h
    split at h
    · cases h
    · split at h
      · cases h
      · split at h <;> cases h
        · exact doneKeeps_regs (.inr rfl)
        · exact doneKeeps_regs (.inl (storeFields_intStatus ‹_› v _))
  | writeMasked r v m =>
    simp only [applyEntry] at h
    split at h
    · cases h
    · split at h <;> cases h
      exact doneKeeps_regs (.inl (storeFields_intStatus (ne_intStatus_of_writeMasked_admitted ‹_›) _ _))

/-! ## Fixed data, history, faults and the mark only grow -/

theorem Extends.refl (s : State) : Extends s s := ⟨rfl, rfl, rfl, rfl, List.prefix_rfl, List.prefix_rfl, id⟩

theorem Extends.trans {s t u : State} (h : Extends s t) (k : Extends t u) : Extends s u where
  variant := k.variant.trans h.variant
  fifoOverride := k.fifoOverride.trans h.fifoOverride
  batchCapable := k.batchCapable.trans h.batchCapable
  params := k.params.trans h.params
  history := h.history.trans k.history
  faults := h.faults.trans k.faults
  refused hr := k.refused (h.refused hr)

theorem DoneKeeps.extends {s t : State} (k : DoneKeeps s t) : Extends s t where
  variant := k.variant
  fifoOverride := k.fifoOverride
  batchCapable := k.batchCapable
  params := k.params
  history := k.history.imp fun _ h => h.symm
  faults := k.faults ▸ List.prefix_rfl
  refused hr := k.refused.trans hr

/-- A fault set only grows at its end (R42). -/
theorem prefix_faultsWith (f : ModelFault) (fs : List ModelFault) : fs <+: faultsWith f fs := by
  unfold faultsWith
  split
  · exact List.prefix_rfl
  · exact List.prefix_append fs [f]

/-- Every primitive of a step only extends the state. -/
theorem kept_extends : Kept Extends where
  refl := Extends.refl
  trans := Extends.trans
  thread c x s := ((DoneKeeps.refl s).setThread c x).extends
  phase _ s := { Extends.refl s with }
  between _ s := { Extends.refl s with }
  stream _ s := { Extends.refl s with }
  batchDone s := { Extends.refl s with }
  emitted e s := ((DoneKeeps.refl s).emit e).extends
  refused s := { Extends.refl s with refused := fun _ => rfl }
  fault f s := { Extends.refl s with faults := prefix_faultsWith f s.faults }
  status _ s := { Extends.refl s with history := List.prefix_append _ _ }
  action h := (doneKeeps_of_act h).extends
  entry h := (doneKeeps_of_applyEntry h).extends

/-- Settles O56: every primitive of a step only extends the state, so a step does (`Kept.step`). -/
theorem stepExtends : Obligations.StepExtends := fun _ _ h => kept_extends.step h

/-! ## A status bit comes from an engine event -/

/-- The history of `t` goes on from that of `s`, and a status bit set in `t` but not in `s` was raised by an engine
event among those appended (R23, R203). -/
def StatusFromEngine (s t : State) : Prop :=
  ∃ es, t.history = s.history ++ es ∧
    ∀ x : Source, t.regs.intStatus &&& sourceBit x ≠ 0#6 →
      s.regs.intStatus &&& sourceBit x ≠ 0#6 ∨ ∃ bits, Event.engineEvent bits ∈ es ∧ bits &&& sourceBit x ≠ 0#6

theorem StatusFromEngine.trans {s t u : State} (h : StatusFromEngine s t) (k : StatusFromEngine t u) :
    StatusFromEngine s u := by
  obtain ⟨es, hes, hst⟩ := h
  obtain ⟨fs, hfs, htu⟩ := k
  refine ⟨es ++ fs, by rw [hfs, hes, List.append_assoc], fun x hx => ?_⟩
  rcases htu x hx with hx | ⟨bits, hmem, hbits⟩
  · exact (hst x hx).imp_right fun ⟨bits, hmem, hbits⟩ => ⟨bits, List.mem_append_left fs hmem, hbits⟩
  · exact .inr ⟨bits, List.mem_append_right es hmem, hbits⟩

/-- Where the status is kept or cleared there is no new bit. -/
theorem DoneKeeps.statusFromEngine {s t : State} (k : DoneKeeps s t) : StatusFromEngine s t := by
  obtain ⟨es, hes⟩ := k.history
  refine ⟨es, hes, fun x hx => .inl ?_⟩
  rcases k.status with hs | hs
  · rwa [hs] at hx
  · exact absurd (by rw [hs, BitVec.zero_and]) hx

/-- An engine event names the bits it raises. -/
theorem statusFromEngine_raiseStatus (bits : Sources) (s : State) : StatusFromEngine s (raiseStatus bits s) := by
  refine ⟨[.engineEvent bits], rfl, fun x hx => ?_⟩
  rw [raiseStatus_regs, setStatus, BitVec.and_or_distrib_right, Ne, BitVec.or_eq_zero_iff, not_and_or] at hx
  exact hx.imp_right fun hb => ⟨bits, List.mem_singleton_self _, hb⟩

/-- Every primitive of a step sets status bits by an engine event only. -/
theorem kept_statusFromEngine : Kept StatusFromEngine where
  refl s := (DoneKeeps.refl s).statusFromEngine
  trans := StatusFromEngine.trans
  thread c x s := ((DoneKeeps.refl s).setThread c x).statusFromEngine
  phase _ s := (DoneKeeps.refl s).statusFromEngine
  between _ s := (DoneKeeps.refl s).statusFromEngine
  stream _ s := (DoneKeeps.refl s).statusFromEngine
  batchDone s := (DoneKeeps.refl s).statusFromEngine
  emitted e s := ((DoneKeeps.refl s).emit e).statusFromEngine
  refused s := (DoneKeeps.refl s).statusFromEngine
  fault _ s := (DoneKeeps.refl s).statusFromEngine
  status := statusFromEngine_raiseStatus
  action h := (doneKeeps_of_act h).statusFromEngine
  entry h := (doneKeeps_of_applyEntry h).statusFromEngine

/-- Settles O48: every primitive of a step sets status bits by an engine event only, so a step does (`Kept.step`). -/
theorem statusBitsOnlyFromEngine : Obligations.StatusBitsOnlyFromEngine := fun _ _ h => kept_statusFromEngine.step h

end Sys2Proof.Machine

/-! # What one action does outside the registers: the contexts, the handler run and the batch (R40, R64, R68) -/

namespace Sys2Proof.Machine

/-- How one action may change the batch (R40): `batch_begin` where the controller is capable (R183), an admitted entry
recorded (R114, R115), `batch_submit` (R184), or not at all. -/
inductive BatchChange (capable : Bool) : Batch → Batch → Prop where
  | same (b : Batch) : BatchChange capable b b
  | begun (h : capable = true) : BatchChange capable .noBatch (.recording [])
  | recorded (es : List BatchEntry) {e : BatchEntry} (h : entryRefusal e = none) :
    BatchChange capable (.recording es) (.recording (es ++ [e]))
  | submitted (es : List BatchEntry) : BatchChange capable (.recording es) (.submitted es)

/-- What an action of context `c` that is done leaves of the two contexts, the handler run and the batch. -/
structure DoneFrame (c : Context) (s t : State) (ret : Return) : Prop where
  todo : (thread c t).todo = (thread c s).todo
  other : ∀ d, d ≠ c → thread d t = thread d s
  phase : t.phase = s.phase
  batch : BatchChange s.batchCapable s.batch t.batch
  ret : ∀ f, ret ≠ .faulted f

/-- Most actions leave both contexts and the handler run as they are. -/
theorem doneFrame_of_contexts {c : Context} {s t : State} {ret : Return} (hcaller : t.caller = s.caller)
    (hirq : t.irq = s.irq) (hphase : t.phase = s.phase) (hbatch : BatchChange s.batchCapable s.batch t.batch)
    (hret : ∀ f, ret ≠ .faulted f) : DoneFrame c s t ret := by
  have hthread : ∀ d, thread d t = thread d s
    | .caller => hcaller
    | .irq => hirq
  exact ⟨by rw [hthread], fun d _ => hthread d, hphase, hbatch, hret⟩

/-- Another context is not replaced. -/
theorem thread_setThread_of_ne {c d : Context} (h : d ≠ c) (x : Thread) (s : State) :
    thread d (setThread c x s) = thread d s := by
  cases c <;> cases d <;> first | exact absurd rfl h | rfl

theorem doneFrame_actWrite {c : Context} {r : Reg} {v : Word} {s t : State} {ret : Return}
    (h : actWrite c r v s = .done t ret) : DoneFrame c s t ret := by
  unfold actWrite at h
  repeat' split at h
  all_goals cases h
  all_goals exact doneFrame_of_contexts rfl rfl rfl (.same _) nofun

/-- The first transaction of a masked write keeps the word in its own context only (R113, log entry 7). -/
theorem doneFrame_actMaskedRead {c : Context} {r : Reg} {s t : State} {ret : Return}
    (h : actMaskedRead c r s = .done t ret) : DoneFrame c s t ret := by
  unfold actMaskedRead at h
  repeat' split at h
  all_goals cases h
  exact
    { todo := by simp
      other := fun d hd => (thread_setThread_of_ne hd _ _).trans (by cases d <;> rfl)
      phase := by simp
      batch := by simpa using .same _
      ret := nofun }

theorem doneFrame_actRecord {c : Context} {e : BatchEntry} {s t : State} {ret : Return}
    (h : actRecord e s = .done t ret) : DoneFrame c s t ret := by
  unfold actRecord at h
  split at h
  · cases h
  · next hadmitted =>
    split at h <;> cases h
    next hb => exact doneFrame_of_contexts rfl rfl rfl (hb ▸ .recorded _ hadmitted) nofun

theorem doneFrame_actPutFifo {c : Context} {b : Bool} {s t : State} {ret : Return}
    (h : actPutFifo c b s = .done t ret) : DoneFrame c s t ret := by
  unfold actPutFifo at h
  split at h
  · cases h
  · split at h
    · exact doneFrame_actRecord h
    · exact doneFrame_actWrite h

/-- Drawing an answer of the clock subsystem (R180) changes no context, no handler run and no batch. -/
theorem contexts_drawClockAnswer (s : State) :
    (drawClockAnswer s).2.caller = s.caller ∧ (drawClockAnswer s).2.irq = s.irq
      ∧ (drawClockAnswer s).2.phase = s.phase ∧ (drawClockAnswer s).2.batch = s.batch := by
  unfold drawClockAnswer
  split <;> exact ⟨rfl, rfl, rfl, rfl⟩

theorem doneFrame_actClockEnable {c : Context} {s t : State} {ret : Return}
    (h : actClockEnable c s = .done t ret) : DoneFrame c s t ret := by
  cases c with
  | irq => cases h
  | caller =>
    obtain ⟨hcaller, hirq, hphase, hbatch⟩ := contexts_drawClockAnswer s
    unfold actClockEnable at h
    generalize drawClockAnswer s = d at *
    obtain ⟨ok, s'⟩ := d
    cases ok <;> cases h <;> exact doneFrame_of_contexts hcaller hirq hphase (hbatch ▸ .same _) nofun

theorem doneFrame_actBatchBegin {c : Context} {s t : State} {ret : Return}
    (h : actBatchBegin s = .done t ret) : DoneFrame c s t ret := by
  unfold actBatchBegin at h
  repeat' split at h
  all_goals cases h
  next hcapable hb =>
    exact doneFrame_of_contexts rfl rfl rfl (not_not.mp hb ▸ .begun (by simpa using hcapable)) nofun

theorem doneFrame_actBatchSubmit {c : Context} {s t : State} {ret : Return}
    (h : actBatchSubmit s = .done t ret) : DoneFrame c s t ret := by
  unfold actBatchSubmit at h
  split at h <;> cases h
  next hb => exact doneFrame_of_contexts rfl rfl rfl (hb ▸ .submitted _) nofun

/-- An action that is done, whichever it is. -/
theorem doneFrame_of_act {c : Context} {a : Action} {s t : State} {ret : Return} (h : act c a s = .done t ret) :
    DoneFrame c s t ret := by
  cases a
  case wr r v => exact doneFrame_actWrite h
  case maskedRead r => exact doneFrame_actMaskedRead h
  case record e => exact doneFrame_actRecord h
  case putFifo b => exact doneFrame_actPutFifo h
  case clockEnable => exact doneFrame_actClockEnable h
  case batchBegin => exact doneFrame_actBatchBegin h
  case batchSubmit => exact doneFrame_actBatchSubmit h
  case setCallback | queryFormats | translate | computeFifoParams =>
    cases h
    exact doneFrame_of_contexts rfl rfl rfl (.same _) nofun
  case rd | maskedWrite | clockDisable | resolveCapacity =>
    simp only [act, actRead, actMaskedWrite, actClockDisable, actResolve] at h
    repeat' split at h
    all_goals cases h
    all_goals exact doneFrame_of_contexts rfl rfl rfl (.same _) nofun

/-! ## A step of a context (R64, R212, R213) -/

theorem thread_endOperation_of_ne {c d : Context} (h : d ≠ c) (ret : Return) (s : State) :
    thread d (endOperation c ret s) = thread d s :=
  thread_setThread_of_ne h _ s

theorem thread_refuseOperation_of_ne {c d : Context} (h : d ≠ c) (why : SpecRefusal) (s : State) :
    thread d (refuseOperation c why s) = thread d s :=
  (thread_endOperation_of_ne h _ _).trans (by cases d <;> rfl)

theorem thread_faultOperation_of_ne {c d : Context} (h : d ≠ c) (f : ModelFault) (s : State) :
    thread d (faultOperation c f s) = thread d s :=
  (thread_endOperation_of_ne h _ _).trans (by cases d <;> rfl)

/-- A step of one context leaves the other as it is. -/
theorem thread_stepThread_of_ne {c d : Context} (h : d ≠ c) (s : State) : thread d (stepThread c s) = thread d s := by
  unfold stepThread
  split
  · rfl
  · split
    · next hact => rw [thread_setThread_of_ne h, (doneFrame_of_act hact).other d h]
    · exact thread_refuseOperation_of_ne h _ s
    · exact thread_faultOperation_of_ne h _ s

/-- Issuing an operation in one context leaves the other as it is. -/
theorem thread_issue_of_ne {c d : Context} (h : d ≠ c) (op : Operation) (s : State) :
    thread d (issue c op s) = thread d s := by
  unfold issue
  split
  · exact thread_setThread_of_ne h _ s
  · exact thread_refuseOperation_of_ne h _ s

@[simp] theorem stepThread_phase (c : Context) (s : State) : (stepThread c s).phase = s.phase := by
  unfold stepThread
  split
  · rfl
  · split
    · next hact => rw [setThread_phase, (doneFrame_of_act hact).phase]
    · exact refuseOperation_phase c _ s
    · exact faultOperation_phase c _ s

@[simp] theorem issue_phase (c : Context) (op : Operation) (s : State) : (issue c op s).phase = s.phase := by
  unfold issue
  split
  · exact setThread_phase c _ s
  · exact refuseOperation_phase c _ s

/-- A step of a context takes its next action, and a refusal or a fault ends the operation (R212, R213). -/
theorem todo_stepThread {c : Context} {s : State} {a : Action} {rest : List Action}
    (h : (thread c s).todo = a :: rest) :
    (thread c (stepThread c s)).todo = rest ∧ (∀ f, (thread c (stepThread c s)).ret ≠ .faulted f)
      ∨ (thread c (stepThread c s)).todo = [] := by
  simp only [stepThread, h]
  split
  · next hact => exact .inl ⟨by simp, by simpa using (doneFrame_of_act hact).ret⟩
  · exact .inr (by simp [refuseOperation])
  · exact .inr (by simp [faultOperation])

/-! ## The coprocessor (R71, R185) -/

/-- A batch entry that is applied changes registers only (R116). -/
theorem eq_of_applyEntry {e : BatchEntry} {s t : State} {ret : Return} (h : applyEntry e s = .done t ret) :
    ∃ g, t = { s with regs := g } := by
  cases e <;>
    · simp only [applyEntry] at h
      repeat' split at h
      all_goals cases h
      all_goals exact ⟨_, rfl⟩

/-- Applying entries changes no context and no handler run. -/
theorem contexts_applyEntries (es : List BatchEntry) (s : State) :
    (applyEntries es s).1.caller = s.caller ∧ (applyEntries es s).1.irq = s.irq
      ∧ (applyEntries es s).1.phase = s.phase := by
  induction es generalizing s with
  | nil => exact ⟨rfl, rfl, rfl⟩
  | cons e rest ih =>
    unfold applyEntries
    split
    · next h =>
      obtain ⟨g, rfl⟩ := eq_of_applyEntry h
      exact ih _
    · exact ⟨rfl, rfl, rfl⟩
    · exact ⟨rfl, rfl, rfl⟩

/-- A batch execution changes no context and no handler run. -/
theorem contexts_executeBatch (es : List BatchEntry) (s : State) :
    (executeBatch es s).caller = s.caller ∧ (executeBatch es s).irq = s.irq
      ∧ (executeBatch es s).phase = s.phase := by
  have h := contexts_applyEntries es s
  unfold executeBatch
  split <;> next heq => rw [heq] at h; exact h

@[simp] theorem executeBatch_caller (es : List BatchEntry) (s : State) : (executeBatch es s).caller = s.caller :=
  (contexts_executeBatch es s).1

@[simp] theorem executeBatch_irq (es : List BatchEntry) (s : State) : (executeBatch es s).irq = s.irq := by
  obtain ⟨-, hirq, -⟩ := contexts_executeBatch es s
  exact hirq

@[simp] theorem executeBatch_phase (es : List BatchEntry) (s : State) : (executeBatch es s).phase = s.phase := by
  obtain ⟨-, -, hphase⟩ := contexts_executeBatch es s
  exact hphase

end Sys2Proof.Machine

/-! # What every step keeps, by whole steps of the agents (R68) -/

namespace Sys2Proof.Machine

/-- A property of states that every whole step of an agent keeps. Where `Kept` asks for a relation that holds across
each primitive update by itself, this admits a property that ties the contexts to the handler run. -/
structure Invariant (P : State → Prop) : Prop where
  between : ∀ {s} b, P s → P { s with between := b }
  stream : ∀ {s} b, P s → P { s with stream := b }
  refused : ∀ {s}, P s → P (markRefused s)
  fault : ∀ {s} f, P s → P (recordFault f s)
  status : ∀ {s} bits, P s → P (raiseStatus bits s)
  executeBatch : ∀ {s} es, P s → P (executeBatch es s)
  deliver : ∀ {s}, P s → P (deliver s)
  irqStep : ∀ {s}, P s → P (irqStep s)
  issue : ∀ {s} op, P s → P (issue .caller op s)
  callerStep : ∀ {s}, P s → P (stepThread .caller s)

section

variable {P : State → Prop} {s t : State}

theorem Invariant.move (k : Invariant P) (running : Option Context) (m : Move) (h : P s) : P (move running m s) := by
  cases m <;> simp only [Machine.move] <;> split
  case engineEvent.isTrue bits _ => exact k.status bits h
  case deliver.isFalse => exact k.deliver h
  case irqStep.isFalse => exact k.irqStep h
  case issue.isFalse op _ => exact k.issue op h
  case callerStep.isFalse => exact k.callerStep h
  case h_1 es _ => exact k.executeBatch es h
  all_goals exact h

theorem Invariant.moves (k : Invariant P) (running : Option Context) (ms : List Move) (h : P s) :
    P (moves running ms s) := by
  induction ms generalizing s with
  | nil => exact h
  | cons m rest ih => exact ih (k.move running m h)

theorem Invariant.interleave (k : Invariant P) (running : Option Context) (h : P s) : P (interleave running s) := by
  unfold Machine.interleave
  split
  · exact h
  · exact k.moves running _ (k.between _ h)

theorem Invariant.runCaller (k : Invariant P) (n : Nat) (h : P s) : P (runCaller n s) := by
  induction n generalizing s with
  | zero => exact h
  | succ n ih =>
    unfold Machine.runCaller
    split
    · exact h
    · exact ih (k.callerStep (k.interleave _ h))

theorem Invariant.callerOperation (k : Invariant P) (op : Operation) (h : P s) : P (callerOperation op s) :=
  k.runCaller _ (k.issue op (k.interleave _ (k.runCaller _ h)))

theorem Invariant.runHandler (k : Invariant P) (n : Nat) (h : P s) : P (runHandler n s) := by
  induction n generalizing s with
  | zero => exact h
  | succ n ih =>
    unfold Machine.runHandler
    split
    · exact h
    · exact ih (k.irqStep (k.interleave _ h))

theorem Invariant.finishHandler (k : Invariant P) (h : P s) : P (finishHandler s) :=
  k.runHandler _ (k.runHandler 3 h)

/-- An invariant holds of the next state, whatever the instruction. -/
theorem Invariant.exec (k : Invariant P) {i : Instr} (h : P s) (hnext : exec i s = .next t) : P t := by
  cases i
  case evEngineEvent bits =>
    simp only [Machine.exec, execEvEngineEvent] at hnext
    split at hnext <;> cases hnext
    exact k.status bits h
  case evIrqHandler =>
    cases hnext
    exact k.finishHandler (k.deliver (k.finishHandler h))
  case evBatchExecute =>
    simp only [Machine.exec, execEvBatchExecute] at hnext
    split at hnext <;> cases hnext
    exact k.executeBatch _ h
  case illegal d =>
    simp only [Machine.exec, execIllegal] at hnext
    split at hnext <;> cases hnext
    · exact k.fault _ (k.refused h)
    · exact k.refused h
  all_goals
    cases hnext
    exact k.callerOperation _ h

/-- An invariant holds of the next state. -/
theorem Invariant.step (k : Invariant P) (h : P s) (hnext : step s = .next t) : P t := by
  unfold Machine.step at hnext
  split at hnext
  · cases hnext
    exact k.interleave none h
  · split at hnext
    · exact k.exec (k.stream _ h) hnext
    · cases hnext

/-! ## Actions of the interrupt context are left only while a callback body runs (R206, R207) -/

/-- The clause speaks of the phase and of what is left of the interrupt context's operation, and of nothing else. -/
theorem irqTodoOnlyInBody_congr (hphase : t.phase = s.phase) (htodo : t.irq.todo = s.irq.todo)
    (h : IrqTodoOnlyInBody s) : IrqTodoOnlyInBody t := by
  simpa only [IrqTodoOnlyInBody, hphase, htodo] using h

/-- Where no action is left, any phase will do. -/
theorem irqTodoOnlyInBody_of_todo (h : s.irq.todo = []) : IrqTodoOnlyInBody s := by
  unfold IrqTodoOnlyInBody
  split
  · trivial
  · exact h

theorem irqTodoOnlyInBody_of_body {ops : List CtrlOp} (h : s.phase = .body ops) : IrqTodoOnlyInBody s := by
  simp only [IrqTodoOnlyInBody, h]

/-- A handler run that is not in a body has no action left. -/
theorem irqTodo_of_not_body (h : IrqTodoOnlyInBody s) (hphase : ∀ ops, s.phase ≠ .body ops) : s.irq.todo = [] := by
  unfold IrqTodoOnlyInBody at h
  split at h
  · next hbody => exact absurd hbody (hphase _)
  · exact h

/-- A step of a body's operation that returns a fault has ended the operation (R212). -/
theorem irqTodo_of_faulted {a : Action} {rest : List Action} {f : ModelFault} (h : s.irq.todo = a :: rest)
    (hret : (stepThread .irq s).irq.ret = .faulted f) : (stepThread .irq s).irq.todo = [] :=
  (todo_stepThread (c := .irq) h).elim (fun hdone => absurd hret (hdone.2 f)) id

theorem irqTodoOnlyInBody_irqStep (h : IrqTodoOnlyInBody s) : IrqTodoOnlyInBody (irqStep s) := by
  unfold irqStep
  split
  · exact h
  · next hphase =>
    have htodo := irqTodo_of_not_body h (by simp [hphase])
    split
    · next hact => exact irqTodoOnlyInBody_of_todo ((doneFrame_of_act hact).todo.trans htodo)
    · exact irqTodoOnlyInBody_of_todo rfl
    · exact irqTodoOnlyInBody_of_todo rfl
  · next hphase =>
    have htodo := irqTodo_of_not_body h (by simp [hphase])
    split
    · exact irqTodoOnlyInBody_of_todo rfl
    · exact irqTodoOnlyInBody_of_todo htodo
  · exact irqTodoOnlyInBody_of_body rfl
  · next hphase =>
    split
    · next htodo =>
      split
      · next hret => exact irqTodoOnlyInBody_of_todo (irqTodo_of_faulted htodo hret)
      · exact irqTodoOnlyInBody_of_body ((stepThread_phase _ s).trans hphase)
    · split
      · exact irqTodoOnlyInBody_of_body (issue_phase _ _ _)
      · exact irqTodoOnlyInBody_of_todo rfl

theorem invariant_irqTodoOnlyInBody : Invariant IrqTodoOnlyInBody where
  between _ h := h
  stream _ h := h
  refused h := h
  fault _ h := h
  status _ h := h
  executeBatch es h := irqTodoOnlyInBody_congr (executeBatch_phase es _) (by rw [executeBatch_irq]) h
  deliver _ := irqTodoOnlyInBody_of_todo rfl
  irqStep := irqTodoOnlyInBody_irqStep
  issue op h :=
    irqTodoOnlyInBody_congr (issue_phase _ op _)
      (congrArg Thread.todo (thread_issue_of_ne (c := .caller) (d := .irq) nofun op _)) h
  callerStep h :=
    irqTodoOnlyInBody_congr (stepThread_phase _ _)
      (congrArg Thread.todo (thread_stepThread_of_ne (c := .caller) (d := .irq) nofun _)) h

/-! ## The batch and the fault set (R40, R42, R66, R183) -/

/-- The clauses of the invariant that speak of the batch and the fault set. -/
def BatchAndFaultsSound (s : State) : Prop := BatchAdmitted s ∧ FaultsDistinct s ∧ BatchOnlyIfCapable s

/-- A batch that changes only as R40 has it holds admitted entries only. -/
theorem BatchChange.admitted {capable : Bool} {b b' : Batch} (k : BatchChange capable b b')
    (h : ∀ e ∈ batchEntries b, entryRefusal e = none) : ∀ e ∈ batchEntries b', entryRefusal e = none := by
  cases k with
  | same => exact h
  | begun => nofun
  | recorded es he => exact List.forall_mem_append.mpr ⟨h, List.forall_mem_singleton.mpr he⟩
  | submitted => exact h

/-- A batch comes to exist only where the controller is capable of one. -/
theorem BatchChange.onlyIfCapable {capable : Bool} {b b' : Batch} (k : BatchChange capable b b')
    (h : b ≠ .noBatch → capable = true) : b' ≠ .noBatch → capable = true := by
  cases k with
  | same => exact h
  | begun hcapable => exact fun _ => hcapable
  | recorded => exact fun _ => h nofun
  | submitted => exact fun _ => h nofun

/-- A fault is added to the set only where it is not yet in it (R42). -/
theorem nodup_faultsWith {f : ModelFault} {fs : List ModelFault} (h : fs.Nodup) : (faultsWith f fs).Nodup := by
  unfold faultsWith
  split
  · exact h
  · next hf => exact List.concat_eq_append ▸ List.Nodup.concat hf h

theorem batchAndFaultsSound_of_act {c : Context} {a : Action} {ret : Return} (hact : act c a s = .done t ret)
    (h : BatchAndFaultsSound s) : BatchAndFaultsSound t := by
  obtain ⟨hadmitted, hfaults, hcapable⟩ := h
  have hbatch := (doneFrame_of_act hact).batch
  have hkept := doneKeeps_of_act hact
  refine ⟨hbatch.admitted hadmitted, ?_, ?_⟩
  · rw [FaultsDistinct, hkept.faults]
    exact hfaults
  · rw [BatchOnlyIfCapable, hkept.batchCapable]
    exact hbatch.onlyIfCapable hcapable

/-- Every primitive of a step keeps the batch and the fault set sound. -/
theorem kept_batchAndFaultsSound : Kept fun s t => BatchAndFaultsSound s → BatchAndFaultsSound t where
  refl _ := id
  trans h k := k ∘ h
  thread c x s h := by cases c <;> exact h
  phase _ _ h := h
  between _ _ h := h
  stream _ _ h := h
  batchDone _ := fun ⟨_, hfaults, _⟩ => ⟨nofun, hfaults, fun hb => absurd rfl hb⟩
  emitted _ _ h := h
  refused _ h := h
  fault _ _ := fun ⟨hadmitted, hfaults, hcapable⟩ => ⟨hadmitted, nodup_faultsWith hfaults, hcapable⟩
  status _ _ h := h
  action := batchAndFaultsSound_of_act
  entry happly h := by
    obtain ⟨g, rfl⟩ := eq_of_applyEntry happly
    exact h

end

/-- Settles O57: the batch and the fault set stay sound across every primitive of a step (`Kept.step`), and the clause
on the interrupt context across every whole step of an agent (`Invariant.step`). -/
theorem stepKeepsInvariant : Obligations.StepKeepsInvariant := by
  rintro s t ⟨hadmitted, hfaults, hcapable, htodo⟩ hnext
  obtain ⟨hadmitted', hfaults', hcapable'⟩ := kept_batchAndFaultsSound.step hnext ⟨hadmitted, hfaults, hcapable⟩
  exact ⟨hadmitted', hfaults', hcapable', invariant_irqTodoOnlyInBody.step htodo hnext⟩

end Sys2Proof.Machine

/-! # What other agents leave of a running context (R68, R69) -/

namespace Sys2Proof.Machine

@[simp] theorem thread_executeBatch (c : Context) (es : List BatchEntry) (s : State) :
    thread c (executeBatch es s) = thread c s := by
  cases c
  · exact executeBatch_caller es s
  · exact executeBatch_irq es s

/-- A step of the handler run leaves the caller's context as it is. -/
@[simp] theorem irqStep_caller (s : State) : (irqStep s).caller = s.caller := by
  have hne : Context.caller ≠ .irq := nofun
  unfold irqStep
  split
  · rfl
  · split
    · next hact => exact (doneFrame_of_act hact).other .caller hne
    · rfl
    · rfl
  · split <;> rfl
  · rfl
  · split
    · split <;> exact thread_stepThread_of_ne hne s
    · split
      · exact thread_issue_of_ne hne _ _
      · rfl

/-- No step of another agent is a step of the running context. -/
theorem thread_move (c : Context) (m : Move) (s : State) : thread c (move (some c) m s) = thread c s := by
  cases m with
  | engineEvent bits => simp only [move]; split <;> cases c <;> rfl
  | batchExecute =>
    simp only [move]
    split
    · exact thread_executeBatch c _ s
    · rfl
    · rfl
  | deliver =>
    cases c
    · simp only [move]
      split <;> rfl
    · simp [move]
  | irqStep =>
    cases c
    · exact irqStep_caller s
    · rfl
  | issue op =>
    cases c
    · rfl
    · simp only [move]
      split
      · rfl
      · exact thread_issue_of_ne (c := .caller) (d := .irq) nofun op s
  | callerStep =>
    cases c
    · rfl
    · exact thread_stepThread_of_ne (c := .caller) (d := .irq) nofun s

theorem thread_moves (c : Context) (ms : List Move) (s : State) : thread c (moves (some c) ms s) = thread c s := by
  induction ms generalizing s with
  | nil => rfl
  | cons m rest ih => exact (ih _).trans (thread_move c m s)

theorem thread_interleave (c : Context) (s : State) : thread c (interleave (some c) s) = thread c s := by
  unfold interleave
  split
  · rfl
  · exact (thread_moves c _ _).trans (by cases c <;> rfl)

/-- Settles O9: each step of another agent keeps the context (`thread_move`), so any list of them does. -/
theorem otherAgentsKeepContext : Obligations.OtherAgentsKeepContext := thread_moves

/-! ## An operation of the caller ends (R67, R215) -/

/-- A step of the caller leaves fewer actions. -/
theorem length_todo_stepThread {s : State} {a : Action} {rest : List Action} (h : s.caller.todo = a :: rest) :
    (stepThread .caller s).caller.todo.length ≤ rest.length := by
  rcases todo_stepThread (c := .caller) h with ⟨htodo, -⟩ | htodo <;> rw [thread_caller] at htodo <;> simp [htodo]

/-- As many steps as there are actions left are enough, whatever comes in between. -/
theorem todo_runCaller {n : Nat} {s : State} (h : s.caller.todo.length ≤ n) : (runCaller n s).caller.todo = [] := by
  induction n generalizing s with
  | zero => exact List.length_eq_zero_iff.mp (Nat.le_zero.mp h)
  | succ n ih =>
    unfold runCaller
    split
    · assumption
    · next a rest htodo =>
      have hkept : (interleave (some .caller) s).caller.todo = a :: rest :=
        (congrArg Thread.todo (thread_interleave .caller s)).trans htodo
      have hrest : rest.length ≤ n := by simpa [htodo] using h
      exact ih ((length_todo_stepThread hkept).trans hrest)

theorem todo_finishCaller (s : State) : (finishCaller s).caller.todo = [] := todo_runCaller le_rfl

/-- Settles O36: the last thing an operation of the caller does is to run to its end (`todo_finishCaller`). -/
theorem callerOperationEnds : Obligations.CallerOperationEnds := fun _ _ => todo_finishCaller _

end Sys2Proof.Machine

/-! # The two transactions of a masked write, and the entries of a batch (R69, R72, R113, R116) -/

namespace Sys2Proof.Machine

/-- With the clock on, the first transaction of a masked write keeps the named fields of the register (R113, log
entry 7). -/
theorem stepThread_maskedRead {c : Context} {r : Reg} {rest : List Action} {s : State}
    (htodo : (thread c s).todo = .maskedRead r :: rest) (hr : r ≠ .intStatus) (hc : 0 < s.clkCount) :
    stepThread c s =
      setThread c ⟨rest, regWord r s.regs, .word (readValue r s.draws s.regs)⟩ (afterRead c r s) := by
  simp only [stepThread, htodo, act, actMaskedRead, hr, if_false, checkImmediate_regOffset r s rfl, Nat.ne_of_gt hc]
  cases c <;> rfl

/-- With the clock on, the second transaction of a masked write stores the word merged over the one that was kept, not
over what the register holds by then (R69, R113). -/
theorem stepThread_maskedWrite {c : Context} {r : Reg} {v m : Word} {rest : List Action} {s : State}
    (htodo : (thread c s).todo = .maskedWrite r v m :: rest) (hr : r ≠ .intStatus) (hc : 0 < s.clkCount) :
    stepThread c s =
      setThread c ⟨rest, (thread c s).old, .ok⟩
        (emit (maskedWriteEvent c r v m) { s with regs := storeFields r (merge (thread c s).old v m) s.regs }) := by
  simp only [stepThread, htodo, act, actMaskedWrite, hr, if_false, checkImmediate_regOffset r s rfl, Nat.ne_of_gt hc]
  cases c <;> rfl

/-- Settles O8: the word that the second transaction stores is merged over the kept one (`stepThread_maskedWrite`). -/
theorem maskedWriteUndoesChangeBetween : Obligations.MaskedWriteUndoesChangeBetween := by
  intro c r v m rest s htodo hr hc
  rw [stepThread_maskedWrite htodo hr hc, setThread_regs, emit_regs, thread_setThread]
  exact ⟨regWord_storeFields r _ _, fun r' hr' => regWord_storeFields_of_ne hr' _ _, rfl⟩

/-! ## Executing a batch of admitted entries (R116, R185) -/

/-- With the clock on, an admitted entry has its effect and no other (R116). -/
theorem applyEntry_of_admitted {e : BatchEntry} {s : State} (hc : 0 < s.clkCount) (he : entryRefusal e = none) :
    applyEntry e s = .done { s with regs := entryEffect s.regs e } .ok := by
  have hc' := Nat.ne_of_gt hc
  cases e with
  | write r v =>
    by_cases hr : r = .intStatus
    · subst hr
      simp [applyEntry, hc', he, entryEffect, clearStatus]
    · simp only [applyEntry, hc', he, hr, if_false]
      cases r <;> first | exact absurd rfl hr | rfl
  | writeMasked r v m => simp only [applyEntry, hc', he, if_false]; rfl

/-- With the clock on, admitted entries all have their effect, in order (R116). -/
theorem applyEntries_of_admitted {es : List BatchEntry} {s : State} (hc : 0 < s.clkCount)
    (hes : ∀ e ∈ es, entryRefusal e = none) :
    applyEntries es s = ({ s with regs := es.foldl entryEffect s.regs }, true) := by
  induction es generalizing s with
  | nil => rfl
  | cons e rest ih =>
    obtain ⟨he, hrest⟩ := List.forall_mem_cons.mp hes
    simp only [applyEntries, applyEntry_of_admitted hc he, ih (s := { s with regs := entryEffect s.regs e }) hc hrest,
      List.foldl_cons]

/-- With the clock on, a batch of admitted entries is executed whole (R116, R185). -/
theorem executeBatch_of_admitted {es : List BatchEntry} {s : State} (hc : 0 < s.clkCount)
    (hes : ∀ e ∈ es, entryRefusal e = none) :
    executeBatch es s =
      emit (.batchApplied es) { s with regs := es.foldl entryEffect s.regs, batch := .noBatch } := by
  simp only [executeBatch, applyEntries_of_admitted hc hes]

/-- With a submitted batch, `EV batch_execute` executes it (R185). -/
theorem exec_evBatchExecute_of_submitted {es : List BatchEntry} {s : State} (hbatch : s.batch = .submitted es) :
    exec .evBatchExecute s = .next (executeBatch es s) := by
  simp only [exec, execEvBatchExecute, hbatch]

end Sys2Proof.Machine

/-! # A masked write with other agents at its points (R68, R69, R236, R241) -/

namespace Sys2Proof.Machine

/-- At a point where the coprocessor alone acts, the submitted batch is executed (R71, R185). -/
theorem interleave_batchExecute {c : Option Context} {es : List BatchEntry} {rest : List (List Move)} {s : State}
    (hpoint : s.between = [.batchExecute] :: rest) (hbatch : s.batch = .submitted es) :
    interleave c s = executeBatch es { s with between := rest } := by
  simp [interleave, hpoint, moves, move, hbatch]

/-- At a point where no agent acts, the point is passed. -/
theorem interleave_of_nil_cons {c : Option Context} {rest : List (List Move)} {s : State}
    (hpoint : s.between = [] :: rest) : interleave c s = { s with between := rest } := by
  simp [interleave, hpoint, moves]

/-- The state after the caller has issued the actions `todo`, with `rest` for the other agents at the points after. -/
def State.issued (todo : List Action) (rest : List (List Move)) (s : State) : State :=
  { s with between := rest, caller := ⟨todo, s.caller.old, .nothing⟩ }

/-- The state after the first transaction of the caller's masked write (R110, R113). -/
def State.maskedRead (r : Reg) (v m : Word) (s : State) : State :=
  setThread .caller ⟨[.maskedWrite r v m], regWord r s.regs, .word (readValue r s.draws s.regs)⟩
    (afterRead .caller r s)

/-- An operation whose checks no other agent comes before. -/
theorem callerOperation_of_plan_nil_cons {op : Operation} {todo : List Action} {rest : List (List Move)} {s : State}
    (hidle : s.caller.todo = []) (hpoint : s.between = [] :: rest)
    (hplan : plan op { s with between := rest } = .actions todo) :
    callerOperation op s = runCaller todo.length (s.issued todo rest) := by
  rw [callerOperation, finishCaller_of_idle hidle, interleave_of_nil_cons hpoint, issue, hplan]
  rfl

/-- A masked write of the caller takes one action at the state `s₁` after its first point, and one at the state `s₂`
after its second. -/
theorem runCaller_putm {r : Reg} {v m : Word} {s s₁ s₂ : State} (hr : r ≠ .intStatus)
    (htodo : s.caller.todo = putm false r v m) (hs₁ : interleave (some .caller) s = s₁) (hc₁ : 0 < s₁.clkCount)
    (hs₂ : interleave (some .caller) (s₁.maskedRead r v m) = s₂) :
    runCaller 2 s = stepThread .caller s₂ ∧ s₂.caller = (s₁.maskedRead r v m).caller := by
  have htodo₁ : (thread .caller s₁).todo = [.maskedRead r, .maskedWrite r v m] := by
    rw [← hs₁, thread_interleave]
    exact htodo
  have hread : stepThread .caller s₁ = s₁.maskedRead r v m := stepThread_maskedRead htodo₁ hr hc₁
  constructor
  · simp only [runCaller, htodo, putm, hs₁, hread, ← hs₂]
    rfl
  · rw [← hs₂]
    exact thread_interleave .caller _

/-- A masked write of the caller: the word merged over comes from the state `s₁` at its first transaction, the fields
outside the register and the batch from the state `s₂` at its second (R69, R113). -/
theorem callerOperation_putm_points {op : Operation} {r : Reg} {v m : Word} {rest : List (List Move)}
    {s s₁ s₂ : State} (hidle : s.caller.todo = []) (hpoint : s.between = [] :: rest)
    (hplan : plan op { s with between := rest } = .actions (putm false r v m)) (hr : r ≠ .intStatus)
    (hs₁ : interleave (some .caller) (s.issued (putm false r v m) rest) = s₁) (hc₁ : 0 < s₁.clkCount)
    (hs₂ : interleave (some .caller) (s₁.maskedRead r v m) = s₂) (hc₂ : 0 < s₂.clkCount) :
    (callerOperation op s).regs = storeFields r (merge (regWord r s₁.regs) v m) s₂.regs
      ∧ (callerOperation op s).batch = s₂.batch := by
  obtain ⟨hrun, hkept⟩ := runCaller_putm hr rfl hs₁ hc₁ hs₂
  have hwrite : stepThread .caller s₂ = _ := stepThread_maskedWrite (congrArg Thread.todo hkept) hr hc₂
  rw [callerOperation_of_plan_nil_cons hidle hpoint hplan]
  change (runCaller 2 _).regs = _ ∧ (runCaller 2 _).batch = _
  rw [hrun, hwrite, thread_caller, hkept]
  exact ⟨rfl, rfl⟩

/-! ## `start` against a batch that sets `MODE_MEMORY`: program P4 (R69, R236) -/

/-- The batch of P4: one masked entry, which sets `MODE_MEMORY`. -/
def modeMemoryBatch : List BatchEntry := [.writeMasked .globalCon modeMemoryBit modeMemoryBit]

/-- With the clock on, the batch of P4 sets `MODE_MEMORY` and no other field (R93, R116). -/
theorem executeBatch_modeMemoryBatch {s : State} (hc : 0 < s.clkCount) :
    executeBatch modeMemoryBatch s =
      emit (.batchApplied modeMemoryBatch)
        { s with regs := { s.regs with modeMemory := 1#1 }, batch := .noBatch } := by
  rw [executeBatch_of_admitted hc (by decide)]
  exact congrArg (fun g => emit _ { s with regs := g, batch := .noBatch }) (storeFields_modeMemory s.regs)

/-- At a point where the coprocessor executes the batch of P4, with the clock on. -/
theorem interleave_modeMemoryBatch {c : Option Context} {rest : List (List Move)} {s : State}
    (hpoint : s.between = [.batchExecute] :: rest) (hbatch : s.batch = .submitted modeMemoryBatch)
    (hc : 0 < s.clkCount) :
    interleave c s =
      emit (.batchApplied modeMemoryBatch)
        { s with regs := { s.regs with modeMemory := 1#1 }, batch := .noBatch, between := rest } := by
  rw [interleave_batchExecute hpoint hbatch, executeBatch_modeMemoryBatch (s := { s with between := rest }) hc]

section

variable {s : State} (hidle : s.caller.todo = []) (hc : 0 < s.clkCount)
include hidle hc

/-- The batch before the first transaction: it is read, and both bits are set. -/
theorem start_of_batch_before (hpoints : s.between = [[], [.batchExecute]])
    (hbatch : s.batch = .submitted modeMemoryBatch) :
    (callerOperation (.ctrl .start) s).regs = { s.regs with engineEn := 1#1, modeMemory := 1#1 }
      ∧ (callerOperation (.ctrl .start) s).batch = .noBatch := by
  obtain ⟨hregs, hdone⟩ := callerOperation_putm_points (op := .ctrl .start) hidle hpoints rfl nofun
    (interleave_modeMemoryBatch rfl hbatch hc) hc (interleave_of_nil rfl) hc
  exact ⟨hregs.trans (storeFields_start _), hdone⟩

/-- The batch between the two transactions: `MODE_MEMORY` is stored as it was read before the batch. -/
theorem start_of_batch_between (hpoints : s.between = [[], [], [.batchExecute]])
    (hbatch : s.batch = .submitted modeMemoryBatch) :
    (callerOperation (.ctrl .start) s).regs = { s.regs with engineEn := 1#1 }
      ∧ (callerOperation (.ctrl .start) s).batch = .noBatch := by
  obtain ⟨hregs, hdone⟩ := callerOperation_putm_points (op := .ctrl .start) hidle hpoints rfl nofun
    (interleave_of_nil_cons rfl) hc (interleave_modeMemoryBatch rfl hbatch hc) hc
  have hlost : storeFields .globalCon (merge (regWord .globalCon s.regs) engineEnBit engineEnBit)
      { s.regs with modeMemory := 1#1 } = { s.regs with engineEn := 1#1 } := storeFields_start s.regs
  exact ⟨hregs.trans hlost, hdone⟩

/-- No other agent between the transactions: `ENGINE_EN` is set, and the batch stays as it was. -/
theorem start_of_between_nil (hpoints : s.between = []) :
    (callerOperation (.ctrl .start) s).regs = { s.regs with engineEn := 1#1 }
      ∧ (callerOperation (.ctrl .start) s).batch = s.batch
      ∧ (callerOperation (.ctrl .start) s).clkCount = s.clkCount := by
  rw [callerOperation_of_putm (r := .globalCon) ⟨hpoints, hidle⟩ nofun rfl, if_pos hc, storeFields_start]
  exact ⟨rfl, rfl, rfl⟩

end

/-- Settles O50: the second transaction writes over a batch that came between the two (`callerOperation_putm_points`),
and over no batch that came before both or comes after them. -/
theorem lostUpdateBetweenTransactions : Obligations.LostUpdateBetweenTransactions := by
  intro s hidle hc _ hmode hbatch
  refine ⟨⟨_, rfl, start_of_batch_before hidle hc rfl hbatch⟩, ⟨_, rfl, ?_⟩, ?_⟩
  · rw [← hmode]
    exact start_of_batch_between (s := { s with between := _ }) hidle hc rfl hbatch
  · obtain ⟨hregs, hkept, hclk⟩ := start_of_between_nil (s := { s with between := [] }) hidle hc rfl
    have hafter := exec_evBatchExecute_of_submitted (hkept.trans hbatch)
    have hexec := executeBatch_modeMemoryBatch (hclk ▸ hc)
    refine ⟨_, _, rfl, hafter.trans (congrArg Host.Outcome.next hexec), ?_, rfl⟩
    rw [emit_regs, hregs]

/-! ## A recorded entry is merged late (R72, R241) -/

/-- Settles O51: the masked write keeps the batch and the clock, and the entry is then merged over what it stored
(`executeBatch_of_admitted`, `storeFields_matrixOn`). -/
theorem maskedEntryMergesLate : Obligations.MaskedEntryMergesLate := by
  intro v w s t u hquiet hc hbatch hwrite hexec
  have hstored := (callerOperation_of_putm (op := .wrm .sizeCon0 v w) (r := .sizeCon0) hquiet nofun rfl).trans
    (if_pos hc)
  cases hwrite.symm.trans (congrArg Host.Outcome.next hstored)
  cases hexec.symm.trans (exec_evBatchExecute_of_submitted hbatch)
  rw [executeBatch_of_admitted (by exact hc) (by decide)]
  exact storeFields_matrixOn _

end Sys2Proof.Machine

/-! # The FIFO-control word (R90, R155) -/

namespace Sys2Proof.Machine

/-- The two fields of an admitted capacity fit their places in the word (R31, R153). -/
theorem fifoFields_lt {c : Nat} (h : c < 2 ^ 19) : pseudoSizeField c < 2 ^ 15 ∧ thresholdField c < 2 ^ 16 := by
  simp only [pseudoSizeField, thresholdField]
  omega

/-- The FIFO-control word is the sum of its three parts (R90): they stand in bits 31, 30:16 and 15:0. -/
theorem toNat_fifoWord {c : Word} (h : c.toNat < 2 ^ 19) :
    (fifoWord c).toNat = 0x80000000 + pseudoSizeField c.toNat * 2 ^ 16 + thresholdField c.toNat := by
  obtain ⟨hsize, hthreshold⟩ := fifoFields_lt h
  have hhigh : 0x80000000 ||| pseudoSizeField c.toNat <<< 16 = (2 ^ 15 + pseudoSizeField c.toNat) <<< 16 := by
    rw [← Nat.mul_one (2 ^ 15), Nat.two_pow_add_eq_or_of_lt hsize, Nat.shiftLeft_or_distrib]
    rfl
  simp (disch := omega) only [fifoWord, BitVec.toNat_or, BitVec.toNat_shiftLeft, BitVec.toNat_ofNat, Nat.mod_eq_of_lt]
  rw [hhigh, ← Nat.shiftLeft_add_eq_or_of_lt hthreshold]
  omega

/-- Settles O18: the fields are cut out of the sum (`toNat_fifoWord`), each smaller than its place. -/
theorem fifoWordParts : Obligations.FifoWordParts := by
  intro c g _ hc
  obtain ⟨hsize, hthreshold⟩ := fifoFields_lt hc
  have hword := toNat_fifoWord hc
  rw [← pseudoSizeField, ← thresholdField]
  refine ⟨BitVec.eq_of_toNat_eq ?_, BitVec.eq_of_toNat_eq ?_, ?_, ?_⟩
  · rw [hword, BitVec.toNat_ofNat]
    omega
  all_goals
    simp only [storeFields, BitVec.extractLsb'_toNat, hword, Nat.shiftRight_eq_div_pow, BitVec.toNat_ofNat]
    omega

end Sys2Proof.Machine

/-! # Items and their bytes (R80 to R84, R97, R98) -/

namespace Sys2Proof.Machine

/-! ## Descriptors: a class, then an offset or a number (R80) -/

/-- A descriptor is the number its class and its low twelve bits make. -/
theorem descriptor_eq_ofNat {d : Half} {k n : Nat} (hk : (d.extractLsb' 12 4).toNat = k)
    (hn : (d.extractLsb' 0 12).toNat = n) : BitVec.ofNat 16 (k * 4096 + n) = d := by
  rw [BitVec.extractLsb'_toNat, Nat.shiftRight_eq_div_pow] at hk hn
  apply BitVec.eq_of_toNat_eq
  rw [BitVec.toNat_ofNat]
  omega

theorem accessDescriptor_eq_append (o : Offsets) (k : BitVec 4) (r : Reg) :
    accessDescriptor o k r = k ++ regOffset o r :=
  BitVec.setWidth_append_eq_shiftLeft_setWidth_or.symm

@[simp] theorem class_accessDescriptor (o : Offsets) (k : BitVec 4) (r : Reg) :
    (accessDescriptor o k r).extractLsb' 12 4 = k := by
  rw [accessDescriptor_eq_append, BitVec.extractLsb'_append_eq_left]

@[simp] theorem offset_accessDescriptor (o : Offsets) (k : BitVec 4) (r : Reg) :
    (accessDescriptor o k r).extractLsb' 0 12 = regOffset o r := by
  rw [accessDescriptor_eq_append, BitVec.extractLsb'_append_eq_right]

/-- A descriptor of class `k` at an offset where register `r` is found is that of the access of `r`. -/
theorem accessDescriptor_of_regOfOffset {o : Offsets} {d : Half} {k : BitVec 4} {r : Reg}
    (hk : (d.extractLsb' 12 4).toNat = k.toNat) (hr : regOfOffset o (d.extractLsb' 0 12) = some r) :
    accessDescriptor o k r = d :=
  calc accessDescriptor o k r
      = d.extractLsb' 12 4 ++ d.extractLsb' 0 12 := by
        rw [accessDescriptor_eq_append, ← regOffset_of_regOfOffset hr, BitVec.eq_of_toNat_eq hk]
    _ = d.extractLsb' 0 16 := BitVec.extractLsb'_append_extractLsb'_eq_extractLsb' rfl
    _ = d := BitVec.extractLsb'_eq_self

/-! ## Which descriptors are illegal, class by class (R82 to R84, R97) -/

/-- A descriptor of the classes 0x1 to 0x5 is legal where there is a register at its offset. -/
theorem legalDescriptor_access {o : Offsets} {d : Half}
    (h : 1 ≤ (d.extractLsb' 12 4).toNat ∧ (d.extractLsb' 12 4).toNat ≤ 5) :
    legalDescriptor o d = (regOfOffset o (d.extractLsb' 0 12)).isSome := by
  obtain ⟨hlow, hhigh⟩ := h
  interval_cases hk : (d.extractLsb' 12 4).toNat <;> simp only [legalDescriptor, hk, isSome_regOfOffset]

theorem regOfOffset_eq_none_iff_illegal {o : Offsets} {d : Half}
    (h : 1 ≤ (d.extractLsb' 12 4).toNat ∧ (d.extractLsb' 12 4).toNat ≤ 5) :
    regOfOffset o (d.extractLsb' 0 12) = none ↔ legalDescriptor o d = false := by
  rw [legalDescriptor_access h, Option.isSome_eq_false_iff, Option.isNone_iff_eq_none]

theorem legalDescriptor_op_iff {o : Offsets} {d : Half} (hk : (d.extractLsb' 12 4).toNat = 8) :
    legalDescriptor o d = true ↔
      (d.extractLsb' 0 12).toNat ∈ [1, 2, 3, 4, 5, 6, 7, 8, 9, 10, 11, 12, 13, 14, 16, 17] := by
  simp [legalDescriptor, hk, operationNumbers, ← BitVec.toNat_inj]

theorem legalDescriptor_ev_iff {o : Offsets} {d : Half} (hk : (d.extractLsb' 12 4).toNat = 9) :
    legalDescriptor o d = true ↔ (d.extractLsb' 0 12).toNat ∈ [1, 2, 3] := by
  simp [legalDescriptor, hk, eventNumbers, ← BitVec.toNat_inj]

theorem illegal_wellFormed_iff {o : Offsets} {x : IllegalItem} :
    (Instr.illegal x).wellFormed o = true ↔
      legalDescriptor o x.descriptor = false ∧ x.words.length = illegalWords x.descriptor := by
  simp [Instr.wellFormed]

/-! ## Executing an illegal item (R97) -/

/-- An illegal access has no register at its offset, so its fault is recorded (R63, R82). -/
theorem illegalAccessFault_of_illegal {o : Offsets} {d : Half} (hd : legalDescriptor o d = false) :
    illegalAccessFault o d =
      if 1 ≤ (d.extractLsb' 12 4).toNat ∧ (d.extractLsb' 12 4).toNat ≤ 5 then
        some (.undefinedRegister (d.extractLsb' 0 12))
      else none := by
  unfold illegalAccessFault
  split
  · next h => rw [(regOfOffset_eq_none_iff_illegal h).2 hd]
  · rfl

/-- Settles O49: a well-formed illegal item has the fault of its class (`illegalAccessFault_of_illegal`), whatever its
words. -/
theorem illegalSetsRefused : Obligations.IllegalSetsRefused := by
  intro x s hx
  obtain ⟨hd, -⟩ := illegal_wellFormed_iff.1 hx
  rw [exec, execIllegal, illegalAccessFault_of_illegal hd]
  by_cases hclass : 1 ≤ (x.descriptor.extractLsb' 12 4).toNat ∧ (x.descriptor.extractLsb' 12 4).toNat ≤ 5
  · rw [if_pos hclass, if_pos hclass]
    rfl
  · rw [if_neg hclass, if_neg hclass]
    rfl

/-! ## Operand words (R98) -/

theorem halfBytes_halfOfBytes (b0 b1 : Byte) : halfBytes (halfOfBytes b0 b1) = [b0, b1] := by
  have hhalf : halfOfBytes b0 b1 = b1 ++ b0 := by
    rw [halfOfBytes, BitVec.or_comm]
    exact BitVec.setWidth_append_eq_shiftLeft_setWidth_or.symm
  rw [halfBytes, hhalf, BitVec.extractLsb'_append_eq_left, BitVec.extractLsb'_append_eq_right]

theorem wordBytes_wordOfBytes (b0 b1 b2 b3 : Byte) : wordBytes (wordOfBytes b0 b1 b2 b3) = [b0, b1, b2, b3] := by
  unfold wordBytes wordOfBytes
  congr <;> ext i hi <;> interval_cases i <;> simp

theorem takeWord_eq_some {bs rest : List Byte} {v : Word} :
    takeWord bs = some (v, rest) ↔ bs = wordBytes v ++ rest := by
  constructor
  · intro h
    unfold takeWord at h
    split at h <;> cases h
    rw [wordBytes_wordOfBytes]
    rfl
  · rintro rfl
    exact takeWord_wordBytes v rest

/-- The next operand word, then whatever `k` reads: what the readers of one, two and five words are made of. -/
def withOperand (bs : List Byte) (k : Word → List Byte → Decoded) : Decoded :=
  match takeWord bs with
  | some (v, rest) => k v rest
  | none => .rejected .truncated

theorem withOperand_eq_item {bs rest : List Byte} {k : Word → List Byte → Decoded} {i : Instr} :
    withOperand bs k = .item i rest ↔ ∃ v bs', bs = wordBytes v ++ bs' ∧ k v bs' = .item i rest := by
  simp only [← takeWord_eq_some]
  unfold withOperand
  cases takeWord bs with
  | none => simp
  | some next =>
    obtain ⟨v, bs'⟩ := next
    simp

section
variable {bs rest : List Byte} {i : Instr}

theorem operands1_eq_item {f : Word → Instr} :
    operands1 bs f = .item i rest ↔ ∃ v, f v = i ∧ bs = [v].flatMap wordBytes ++ rest := by
  have hread : operands1 bs f = withOperand bs fun v bs' => .item (f v) bs' := rfl
  simp [hread, withOperand_eq_item, and_comm]

theorem operands2_eq_item {f : Word → Word → Instr} :
    operands2 bs f = .item i rest ↔ ∃ v w, f v w = i ∧ bs = [v, w].flatMap wordBytes ++ rest := by
  have hread : operands2 bs f = withOperand bs fun v bs' => operands1 bs' (f v) := rfl
  simp only [hread, withOperand_eq_item, operands1_eq_item]
  constructor
  · rintro ⟨v, _, rfl, w, rfl, rfl⟩
    exact ⟨v, w, rfl, rfl⟩
  · rintro ⟨v, w, rfl, rfl⟩
    exact ⟨v, _, rfl, w, rfl, rfl⟩

theorem operands5_eq_item {f : Word → Word → Word → Word → Word → Instr} :
    operands5 bs f = .item i rest ↔
      ∃ v w x y z, f v w x y z = i ∧ bs = [v, w, x, y, z].flatMap wordBytes ++ rest := by
  have hread : operands5 bs f = withOperand bs fun v bs' => withOperand bs' fun w bs' =>
    withOperand bs' fun x bs' => operands2 bs' (f v w x) := rfl
  simp only [hread, withOperand_eq_item, operands2_eq_item]
  constructor
  · rintro ⟨v, _, rfl, w, _, rfl, x, _, rfl, y, z, rfl, rfl⟩
    exact ⟨v, w, x, y, z, rfl, rfl⟩
  · rintro ⟨v, w, x, y, z, rfl, rfl⟩
    exact ⟨v, _, rfl, w, _, rfl, x, _, rfl, y, z, rfl, rfl⟩

theorem extractLsb'_low_setWidth (bits : Sources) : (bits.setWidth 32).extractLsb' 0 6 = bits := by
  rw [BitVec.extractLsb'_setWidth_of_le (by decide), BitVec.extractLsb'_eq_self]

theorem extractLsb'_high_setWidth (bits : Sources) : (bits.setWidth 32).extractLsb' 6 26 = 0#26 := by
  apply BitVec.eq_of_toNat_eq
  simp only [BitVec.extractLsb'_toNat, BitVec.toNat_setWidth, BitVec.toNat_ofNat]
  omega

/-- A word with zeros in bits 31:6 is the one of a six-bit set. -/
theorem setWidth_of_extractLsb'_eq_zero {v : Word} (h : v.extractLsb' 6 26 = 0#26) :
    (v.extractLsb' 0 6).setWidth 32 = v := by
  have hhigh := congrArg BitVec.toNat h
  apply BitVec.eq_of_toNat_eq
  simp only [BitVec.extractLsb'_toNat, BitVec.toNat_setWidth, BitVec.toNat_ofNat] at hhigh ⊢
  omega

/-- The operand word of `EV engine_event` is its six-bit set, with zeros above (R98). -/
theorem engineOperand_eq_item :
    engineOperand bs = .item i rest ↔
      ∃ bits : Sources, .evEngineEvent bits = i ∧ bs = [bits.setWidth 32].flatMap wordBytes ++ rest := by
  have hread : engineOperand bs = withOperand bs fun v bs' =>
    if v.extractLsb' 6 26 = 0#26 then .item (.evEngineEvent (v.extractLsb' 0 6)) bs'
    else .rejected .reservedEventBits := rfl
  rw [hread, withOperand_eq_item]
  constructor
  · rintro ⟨v, bs', rfl, hitem⟩
    split at hitem <;> cases hitem
    next hzero =>
    exact ⟨_, rfl, by rw [setWidth_of_extractLsb'_eq_zero hzero]; rfl⟩
  · rintro ⟨bits, rfl, rfl⟩
    refine ⟨_, rest, rfl, ?_⟩
    rw [extractLsb'_high_setWidth, extractLsb'_low_setWidth, if_pos rfl]

end

/-! ## Decoding the bytes of an item -/

/-- The decoder takes the descriptor that the encoder wrote and goes on to the operand words. -/
theorem decode_encode_eq_decodeAfter (o : Offsets) (i : Instr) (rest : List Byte) :
    decode o (encode o i ++ rest) = decodeAfter o (i.descriptor o) (i.operandWords.flatMap wordBytes ++ rest) :=
  congrArg (decodeAfter o · _) (halfOfBytes_halfBytes _)

section
variable {o : Offsets} (ho : (registerOffsets o).Nodup)
include ho

theorem decodeAccess_accessDescriptor (k : BitVec 4) (r : Reg) (legal : Reg → Decoded) (illegal : Decoded) :
    decodeAccess o (accessDescriptor o k r) legal illegal = legal r := by
  rw [decodeAccess, offset_accessDescriptor, regOfOffset_regOffset ho]

theorem decodeAfter_rdInstr (r : Reg) (rest : List Byte) :
    decodeAfter o (accessDescriptor o 0x1#4 r) rest = .item (rdInstr r) rest := by
  simp [decodeAfter, decodeAccess_accessDescriptor ho]

theorem decodeAfter_wrInstr (r : Reg) (v : Word) (rest : List Byte) :
    decodeAfter o (accessDescriptor o 0x2#4 r) ([v].flatMap wordBytes ++ rest) = .item (wrInstr r v) rest := by
  simp only [decodeAfter, class_accessDescriptor, decodeAccess_accessDescriptor ho]
  exact operands1_eq_item.2 ⟨_, rfl, rfl⟩

theorem decodeAfter_wrmInstr (r : Reg) (v m : Word) (rest : List Byte) :
    decodeAfter o (accessDescriptor o 0x3#4 r) ([v, m].flatMap wordBytes ++ rest) = .item (wrmInstr r v m) rest := by
  simp only [decodeAfter, class_accessDescriptor, decodeAccess_accessDescriptor ho]
  exact operands2_eq_item.2 ⟨_, _, rfl, rfl⟩

theorem decodeAfter_bwrInstr (r : Reg) (v : Word) (rest : List Byte) :
    decodeAfter o (accessDescriptor o 0x4#4 r) ([v].flatMap wordBytes ++ rest) = .item (bwrInstr r v) rest := by
  simp only [decodeAfter, class_accessDescriptor, decodeAccess_accessDescriptor ho]
  exact operands1_eq_item.2 ⟨_, rfl, rfl⟩

theorem decodeAfter_bwrmInstr (r : Reg) (v m : Word) (rest : List Byte) :
    decodeAfter o (accessDescriptor o 0x5#4 r) ([v, m].flatMap wordBytes ++ rest) = .item (bwrmInstr r v m) rest := by
  simp only [decodeAfter, class_accessDescriptor, decodeAccess_accessDescriptor ho]
  exact operands2_eq_item.2 ⟨_, _, rfl, rfl⟩

end

theorem decodeAccess_of_illegal {o : Offsets} {d : Half} (hd : legalDescriptor o d = false)
    (h : 1 ≤ (d.extractLsb' 12 4).toNat ∧ (d.extractLsb' 12 4).toNat ≤ 5) (legal : Reg → Decoded)
    (illegal : Decoded) : decodeAccess o d legal illegal = illegal := by
  rw [decodeAccess, (regOfOffset_eq_none_iff_illegal h).2 hd]

theorem decodeOp_of_illegal {o : Offsets} {d : Half} (hk : (d.extractLsb' 12 4).toNat = 8)
    (hd : legalDescriptor o d = false) (bs : List Byte) : decodeOp d bs = .item (.illegal ⟨d, []⟩) bs := by
  rw [← Bool.not_eq_true, legalDescriptor_op_iff hk] at hd
  unfold decodeOp
  split <;> simp_all

theorem decodeEv_of_illegal {o : Offsets} {d : Half} (hk : (d.extractLsb' 12 4).toNat = 9)
    (hd : legalDescriptor o d = false) (bs : List Byte) : decodeEv d bs = .item (.illegal ⟨d, []⟩) bs := by
  rw [← Bool.not_eq_true, legalDescriptor_ev_iff hk] at hd
  unfold decodeEv
  split <;> simp_all

theorem decodeAfter_illegal {o : Offsets} {d : Half} {ws : List Word} (hd : legalDescriptor o d = false)
    (hws : ws.length = illegalWords d) (rest : List Byte) :
    decodeAfter o d (ws.flatMap wordBytes ++ rest) = .item (.illegal ⟨d, ws⟩) rest := by
  unfold decodeAfter
  split
  case h_1 hk =>
    simp only [illegalWords, hk, List.length_eq_zero_iff] at hws
    rw [decodeAccess_of_illegal hd (by omega), hws]
    rfl
  case h_2 hk | h_4 hk =>
    simp only [illegalWords, hk, List.length_eq_one_iff] at hws
    obtain ⟨v, rfl⟩ := hws
    rw [decodeAccess_of_illegal hd (by omega)]
    exact operands1_eq_item.2 ⟨v, rfl, rfl⟩
  case h_3 hk | h_5 hk =>
    simp only [illegalWords, hk, List.length_eq_two] at hws
    obtain ⟨v, m, rfl⟩ := hws
    rw [decodeAccess_of_illegal hd (by omega)]
    exact operands2_eq_item.2 ⟨v, m, rfl, rfl⟩
  case h_6 hk =>
    simp only [illegalWords, hk, List.length_eq_zero_iff] at hws
    rw [decodeOp_of_illegal hk hd, hws]
    rfl
  case h_7 hk =>
    simp only [illegalWords, hk, List.length_eq_zero_iff] at hws
    rw [decodeEv_of_illegal hk hd, hws]
    rfl
  case h_8 =>
    simp only [illegalWords, List.length_eq_zero_iff] at hws
    rw [hws]
    rfl

/-- Settles O52: the bytes are read back as a descriptor and operand words (`decode_encode_eq_decodeAfter`), and each
row reads as many words as its instruction has. -/
theorem decodeEncode : Obligations.DecodeEncode := by
  intro o i rest ho hi
  rw [decode_encode_eq_decodeAfter]
  cases i <;> dsimp only [Instr.descriptor, Instr.operandWords]
  case illegal x =>
    obtain ⟨hd, hws⟩ := illegal_wellFormed_iff.1 hi
    exact decodeAfter_illegal hd hws rest
  case rdIntEnable | rdIntStatus | rdGlobalCon | rdSizeCon0 | rdSizeCon1 | rdMemCon | rdMemSrcPitch
      | rdMemGmcSetting0 | rdFifoCon | rdMemStartAddr => exact decodeAfter_rdInstr ho _ _
  case wrIntEnable | wrIntStatus | wrGlobalCon | wrSizeCon0 | wrSizeCon1 | wrMemCon | wrMemSrcPitch
      | wrMemGmcSetting0 | wrFifoCon | wrMemStartAddr => exact decodeAfter_wrInstr ho _ _ _
  case wrmIntEnable | wrmIntStatus | wrmGlobalCon | wrmSizeCon0 | wrmSizeCon1 | wrmMemCon | wrmMemSrcPitch
      | wrmMemGmcSetting0 | wrmFifoCon | wrmMemStartAddr => exact decodeAfter_wrmInstr ho _ _ _ _
  case bwrIntEnable | bwrIntStatus | bwrGlobalCon | bwrSizeCon0 | bwrSizeCon1 | bwrMemCon | bwrMemSrcPitch
      | bwrMemGmcSetting0 | bwrFifoCon | bwrMemStartAddr => exact decodeAfter_bwrInstr ho _ _ _
  case bwrmIntEnable | bwrmIntStatus | bwrmGlobalCon | bwrmSizeCon0 | bwrmSizeCon1 | bwrmMemCon | bwrmMemSrcPitch
      | bwrmMemGmcSetting0 | bwrmFifoCon | bwrmMemStartAddr => exact decodeAfter_bwrmInstr ho _ _ _ _
  case opConfigureGeometry | opConfigureLayer => exact operands5_eq_item.2 ⟨_, _, _, _, _, rfl, rfl⟩
  case opRegisterCallback => exact operands2_eq_item.2 ⟨_, _, rfl, rfl⟩
  case opTranslate | opComputeFifoParams => exact operands1_eq_item.2 ⟨_, rfl, rfl⟩
  case evEngineEvent => exact engineOperand_eq_item.2 ⟨_, rfl, rfl⟩
  case opStart | opStop | opEnableVblank | opDisableVblank | opClearCallback | opClockEnable | opClockDisable
      | opQuerySupportedFormats | opResolveFifoCapacity | opBatchBegin | opBatchSubmit | evIrqHandler
      | evBatchExecute => rfl

/-! ## What the decoder accepts -/

/-- `i` is a well-formed instruction of descriptor `d` and operand words `ws`. -/
structure HasForm (o : Offsets) (d : Half) (ws : List Word) (i : Instr) : Prop where
  wellFormed : i.wellFormed o = true
  descriptor : i.descriptor o = d
  operandWords : i.operandWords = ws

/-- An item that `x` holds has descriptor `d`, and `bs` are its operand words followed by its rest. -/
def ReadsFrom (o : Offsets) (d : Half) (bs : List Byte) (x : Decoded) : Prop :=
  ∀ i rest, x = .item i rest → ∃ ws, HasForm o d ws i ∧ bs = ws.flatMap wordBytes ++ rest

section
variable {o : Offsets} {d : Half} {bs : List Byte}

theorem readsFrom_item {i : Instr} (h : HasForm o d [] i) : ReadsFrom o d bs (.item i bs) := by
  rintro _ _ ⟨⟩
  exact ⟨[], h, rfl⟩

theorem readsFrom_operands1 {f : Word → Instr} (h : ∀ v, HasForm o d [v] (f v)) :
    ReadsFrom o d bs (operands1 bs f) := by
  intro i rest hitem
  obtain ⟨v, rfl, hbs⟩ := operands1_eq_item.1 hitem
  exact ⟨_, h v, hbs⟩

theorem readsFrom_operands2 {f : Word → Word → Instr} (h : ∀ v w, HasForm o d [v, w] (f v w)) :
    ReadsFrom o d bs (operands2 bs f) := by
  intro i rest hitem
  obtain ⟨v, w, rfl, hbs⟩ := operands2_eq_item.1 hitem
  exact ⟨_, h v w, hbs⟩

theorem readsFrom_operands5 {f : Word → Word → Word → Word → Word → Instr}
    (h : ∀ v w x y z, HasForm o d [v, w, x, y, z] (f v w x y z)) : ReadsFrom o d bs (operands5 bs f) := by
  intro i rest hitem
  obtain ⟨v, w, x, y, z, rfl, hbs⟩ := operands5_eq_item.1 hitem
  exact ⟨_, h v w x y z, hbs⟩

theorem readsFrom_engineOperand (h : ∀ bits, HasForm o d [bits.setWidth 32] (.evEngineEvent bits)) :
    ReadsFrom o d bs (engineOperand bs) := by
  intro i rest hitem
  obtain ⟨bits, rfl, hbs⟩ := engineOperand_eq_item.1 hitem
  exact ⟨_, h bits, hbs⟩

/-! The form of each class's instructions. -/

theorem hasForm_rdInstr (r : Reg) : HasForm o (accessDescriptor o 0x1#4 r) [] (rdInstr r) := by
  cases r <;> exact ⟨rfl, rfl, rfl⟩

theorem hasForm_wrInstr (r : Reg) (v : Word) : HasForm o (accessDescriptor o 0x2#4 r) [v] (wrInstr r v) := by
  cases r <;> exact ⟨rfl, rfl, rfl⟩

theorem hasForm_wrmInstr (r : Reg) (v m : Word) :
    HasForm o (accessDescriptor o 0x3#4 r) [v, m] (wrmInstr r v m) := by
  cases r <;> exact ⟨rfl, rfl, rfl⟩

theorem hasForm_bwrInstr (r : Reg) (v : Word) : HasForm o (accessDescriptor o 0x4#4 r) [v] (bwrInstr r v) := by
  cases r <;> exact ⟨rfl, rfl, rfl⟩

theorem hasForm_bwrmInstr (r : Reg) (v m : Word) :
    HasForm o (accessDescriptor o 0x5#4 r) [v, m] (bwrmInstr r v m) := by
  cases r <;> exact ⟨rfl, rfl, rfl⟩

theorem hasForm_illegal {ws : List Word} (hd : legalDescriptor o d = false) (hws : ws.length = illegalWords d) :
    HasForm o d ws (.illegal ⟨d, ws⟩) :=
  ⟨illegal_wellFormed_iff.2 ⟨hd, hws⟩, rfl, rfl⟩

/-- An access reads from its bytes where both its legal and its illegal form do. -/
theorem readsFrom_decodeAccess {k : BitVec 4} (hk : (d.extractLsb' 12 4).toNat = k.toNat)
    (hclass : 1 ≤ k.toNat ∧ k.toNat ≤ 5) {legal : Reg → Decoded} {illegal : Decoded}
    (hlegal : ∀ r, ReadsFrom o (accessDescriptor o k r) bs (legal r))
    (hillegal : legalDescriptor o d = false → ReadsFrom o d bs illegal) :
    ReadsFrom o d bs (decodeAccess o d legal illegal) := by
  unfold decodeAccess
  split
  · next r hr => exact accessDescriptor_of_regOfOffset hk hr ▸ hlegal r
  · next hr => exact hillegal ((regOfOffset_eq_none_iff_illegal (hk ▸ hclass)).1 hr)

theorem readsFrom_decodeOp (hk : (d.extractLsb' 12 4).toNat = 8) : ReadsFrom o d bs (decodeOp d bs) := by
  unfold decodeOp
  split
  case h_1 hn | h_8 hn => exact readsFrom_operands5 fun _ _ _ _ _ => ⟨rfl, descriptor_eq_ofNat hk hn, rfl⟩
  case h_6 hn => exact readsFrom_operands2 fun _ _ => ⟨rfl, descriptor_eq_ofNat hk hn, rfl⟩
  case h_12 hn | h_13 hn => exact readsFrom_operands1 fun _ => ⟨rfl, descriptor_eq_ofNat hk hn, rfl⟩
  case h_17 =>
    refine readsFrom_item (hasForm_illegal ?_ (by simp [illegalWords, hk]))
    rw [← Bool.not_eq_true, legalDescriptor_op_iff hk]
    simp_all
  all_goals
    next hn => exact readsFrom_item ⟨rfl, descriptor_eq_ofNat hk hn, rfl⟩

theorem readsFrom_decodeEv (hk : (d.extractLsb' 12 4).toNat = 9) : ReadsFrom o d bs (decodeEv d bs) := by
  unfold decodeEv
  split
  case h_1 hn => exact readsFrom_engineOperand fun _ => ⟨rfl, descriptor_eq_ofNat hk hn, rfl⟩
  case h_2 hn | h_3 hn => exact readsFrom_item ⟨rfl, descriptor_eq_ofNat hk hn, rfl⟩
  case h_4 =>
    refine readsFrom_item (hasForm_illegal ?_ (by simp [illegalWords, hk]))
    rw [← Bool.not_eq_true, legalDescriptor_ev_iff hk]
    simp_all

theorem readsFrom_decodeAfter : ReadsFrom o d bs (decodeAfter o d bs) := by
  unfold decodeAfter
  split
  case h_1 hk =>
    exact readsFrom_decodeAccess hk (by decide) (fun r => readsFrom_item (hasForm_rdInstr r))
      fun hd => readsFrom_item (hasForm_illegal hd (by simp [illegalWords, hk]))
  case h_2 hk =>
    exact readsFrom_decodeAccess hk (by decide) (fun r => readsFrom_operands1 (hasForm_wrInstr r))
      fun hd => readsFrom_operands1 fun _ => hasForm_illegal hd (by simp [illegalWords, hk])
  case h_3 hk =>
    exact readsFrom_decodeAccess hk (by decide) (fun r => readsFrom_operands2 (hasForm_wrmInstr r))
      fun hd => readsFrom_operands2 fun _ _ => hasForm_illegal hd (by simp [illegalWords, hk])
  case h_4 hk =>
    exact readsFrom_decodeAccess hk (by decide) (fun r => readsFrom_operands1 (hasForm_bwrInstr r))
      fun hd => readsFrom_operands1 fun _ => hasForm_illegal hd (by simp [illegalWords, hk])
  case h_5 hk =>
    exact readsFrom_decodeAccess hk (by decide) (fun r => readsFrom_operands2 (hasForm_bwrmInstr r))
      fun hd => readsFrom_operands2 fun _ _ => hasForm_illegal hd (by simp [illegalWords, hk])
  case h_6 hk => exact readsFrom_decodeOp hk
  case h_7 hk => exact readsFrom_decodeEv hk
  case h_8 =>
    have hd : legalDescriptor o d = false := by simp only [legalDescriptor]
    exact readsFrom_item (hasForm_illegal hd (by simp only [illegalWords, List.length_nil]))

end

/-- Settles O53: the descriptor's two bytes are the first two, and the words after it are read as the item's own
(`readsFrom_decodeAfter`). -/
theorem encodeDecode : Obligations.EncodeDecode := by
  intro o i bs rest h
  unfold decode at h
  split at h
  · next b0 b1 bs =>
    obtain ⟨ws, ⟨hwf, hdescriptor, hwords⟩, rfl⟩ := readsFrom_decodeAfter i rest h
    refine ⟨hwf, ?_⟩
    rw [encode, hdescriptor, hwords, halfBytes_halfOfBytes]
    rfl
  · cases h

/-- Settles O54: the decoder computes each item from its word. -/
theorem specWordsDecode : Obligations.SpecWordsDecode :=
  ⟨rfl, rfl, rfl, rfl, rfl, rfl⟩

end Sys2Proof.Machine

/-! # Register accesses of the caller with no other agent in between (R110 to R117) -/

namespace Sys2Proof.Machine

/-! ## The rows of each class of access run one operation on their register (R81) -/

theorem exec_rdInstr (r : Reg) (s : State) : exec (rdInstr r) s = .next (callerOperation (.rd r) s) := by
  cases r <;> rfl

theorem exec_wrInstr (r : Reg) (v : Word) (s : State) :
    exec (wrInstr r v) s = .next (callerOperation (.wr r v) s) := by
  cases r <;> rfl

theorem exec_wrmInstr (r : Reg) (v m : Word) (s : State) :
    exec (wrmInstr r v m) s = .next (callerOperation (.wrm r v m) s) := by
  cases r <;> rfl

theorem exec_bwrInstr (r : Reg) (v : Word) (s : State) :
    exec (bwrInstr r v) s = .next (callerOperation (.bwr r v) s) := by
  cases r <;> rfl

theorem exec_bwrmInstr (r : Reg) (v m : Word) (s : State) :
    exec (bwrmInstr r v m) s = .next (callerOperation (.bwrm r v m) s) := by
  cases r <;> rfl

/-! ## A step of a context by how its action ends (R200, R212, R213) -/

section

variable {c : Context} {a : Action} {rest : List Action} {s : State} (htodo : (thread c s).todo = a :: rest)
include htodo

theorem stepThread_of_done {t : State} {ret : Return} (ha : act c a s = .done t ret) :
    stepThread c s = setThread c { thread c t with todo := rest, ret := ret } t := by
  simp only [stepThread, htodo, ha]

theorem stepThread_of_refused {why : SpecRefusal} (ha : act c a s = .refuse why) :
    stepThread c s = refuseOperation c why s := by
  simp only [stepThread, htodo, ha]

theorem stepThread_of_fault {f : ModelFault} (ha : act c a s = .fault f) :
    stepThread c s = faultOperation c f s := by
  simp only [stepThread, htodo, ha]

end

/-! ## An operation of a quiet caller by how its first action ends -/

section

variable {op : Operation} {a : Action} {rest : List Action} {s : State} (h : Quiet s)
include h

/-- The operation starts with its first action; the others follow. -/
theorem callerOperation_of_first (hplan : plan op s = .actions (a :: rest)) :
    callerOperation op s = runCaller rest.length (stepThread .caller (s.issued (a :: rest) s.between)) := by
  rw [callerOperation_of_quiet op h, issue, hplan]
  exact finishCaller_step h.1 rfl

/-- An operation of one action, which is done. -/
theorem callerOperation_of_done {t : State} {ret : Return} (hplan : plan op s = .actions [a])
    (ha : act .caller a (s.issued [a] s.between) = .done t ret) :
    callerOperation op s = { t with caller := { t.caller with todo := s.caller.todo, ret := ret } } := by
  rw [callerOperation_of_first h hplan, stepThread_of_done rfl ha, h.2]
  rfl

/-- An operation whose first action is refused ends there. -/
theorem callerOperation_of_first_refused {why : SpecRefusal} (hplan : plan op s = .actions (a :: rest))
    (ha : act .caller a (s.issued (a :: rest) s.between) = .refuse why) :
    callerOperation op s = callerRefused why s := by
  rw [callerOperation_of_first h hplan, stepThread_of_refused rfl ha, runCaller_of_idle _ rfl]
  simp only [callerRefused, h.2]
  rfl

/-- An operation whose first action accesses `r` with the clock off ends there. -/
theorem callerOperation_of_first_unclocked {r : Reg} (hplan : plan op s = .actions (a :: rest))
    (ha : act .caller a (s.issued (a :: rest) s.between) = .fault (.unclockedAccess (regOffset s.params.offsets r))) :
    callerOperation op s = callerUnclocked r s := by
  rw [callerOperation_of_first h hplan, stepThread_of_fault rfl ha, runCaller_of_idle _ rfl]
  simp only [callerUnclocked, h.2]
  rfl

end

/-! ## Immediate accesses -/

section

variable {c : Context} {r : Reg} {v : Word} {s : State}

/-- A read takes place exactly with the clock on (R110, R117). -/
theorem act_rd : act c (.rd r) s =
    if s.clkCount = 0 then .fault (.unclockedAccess (regOffset s.params.offsets r))
    else .done (afterRead c r s) (.word (readValue r s.draws s.regs)) := by
  rw [act, actRead, checkImmediate_regOffset r s rfl]
  split_ifs <;> rfl

/-- With the clock off a write faults, whatever its register (R111, R112, R117). -/
theorem act_wr_unclocked (hc : s.clkCount = 0) :
    act c (.wr r v) s = .fault (.unclockedAccess (regOffset s.params.offsets r)) := by
  rw [act, actWrite, checkImmediate_regOffset r s rfl, if_pos hc]

/-- With the clock on a write of 0 to `INT_STATUS` clears it (R112). -/
theorem act_wr_intStatus_zero (hc : s.clkCount ≠ 0) : act c (.wr .intStatus 0#32) s =
    .done (emit (writeEvent c .intStatus 0#32) { s with regs := clearStatus s.regs }) .ok := by
  rw [act, actWrite, checkImmediate_regOffset .intStatus s rfl, if_neg hc]
  rfl

/-- With the clock on a write of any other value to `INT_STATUS` is refused (R112). -/
theorem act_wr_intStatus_of_ne (hc : s.clkCount ≠ 0) (hv : v ≠ 0#32) :
    act c (.wr .intStatus v) s = .refuse .nonzeroStatusWrite := by
  rw [act, actWrite, checkImmediate_regOffset .intStatus s rfl, if_neg hc]
  exact if_neg hv

/-- With the clock off a write by a quiet caller faults. -/
theorem callerOperation_wr_unclocked (h : Quiet s) (hc : s.clkCount = 0) :
    callerOperation (.wr r v) s = callerUnclocked r s :=
  callerOperation_of_first_unclocked h rfl (act_wr_unclocked hc)

/-- With the clock on a write by a quiet caller stores the fields of its register (R111). -/
theorem callerOperation_wr (h : Quiet s) (hr : r ≠ .intStatus) (hc : 0 < s.clkCount) :
    callerOperation (.wr r v) s =
      { s with
        regs := storeFields r v s.regs,
        history := s.history ++ [writeEvent .caller r v],
        caller := { s.caller with ret := .ok } } := by
  rw [callerOperation_of_plan h rfl, finishCaller_put h.1 hc _ _ _ _ _ _ _ _ hr, finishCaller_of_idle rfl, ← h.2]
  rfl

end

/-- Settles O1: `act_rd` in both clock cases. -/
theorem readCompletes : Obligations.ReadCompletes := by
  intro r s h
  rw [exec_rdInstr]
  congr 1
  split_ifs with hc
  · exact callerOperation_of_done (op := .rd r) h rfl (act_rd.trans (if_neg (Nat.ne_of_gt hc)))
  · exact callerOperation_of_first_unclocked h rfl (act_rd.trans (if_pos (Nat.eq_zero_of_not_pos hc)))

/-- Settles O4: the next state is that of `callerOperation_wr`, whose register reads back the named fields of `v`. -/
theorem writeCompletes : Obligations.WriteCompletes := by
  intro r v s hr h
  rw [exec_wrInstr]
  constructor
  · intro hc
    refine ⟨_, congrArg _ (callerOperation_wr h hr hc), ?_, ?_, rfl⟩
    · exact regWord_storeFields r v s.regs
    · exact fun r' hr' => regWord_storeFields_of_ne hr' v s.regs
  · exact fun hc => congrArg _ (callerOperation_wr_unclocked h hc)

/-- Settles O5: the clock is checked first (`act_wr_unclocked`), then the value (`act_wr_intStatus_zero`,
`act_wr_intStatus_of_ne`). -/
theorem statusWriteClearsOrIsRefused : Obligations.StatusWriteClearsOrIsRefused := by
  intro v s h
  rw [show exec (.wrIntStatus v) s = _ from exec_wrInstr .intStatus v s]
  congr 1
  split_ifs with hc hv
  · exact callerOperation_wr_unclocked h hc
  · subst hv
    exact callerOperation_of_done (op := .wr .intStatus 0#32) h rfl (act_wr_intStatus_zero hc)
  · exact callerOperation_of_first_refused h rfl (act_wr_intStatus_of_ne hc hv)

/-- Settles O6: the next state is that of `callerOperation_of_putm`, whose register reads back the named fields of the
merged word. -/
theorem maskedWriteCompletes : Obligations.MaskedWriteCompletes := by
  intro r v m s hr h
  have hputm := callerOperation_of_putm (op := .wrm r v m) h hr rfl
  rw [exec_wrmInstr]
  constructor
  · intro hc
    refine ⟨_, congrArg _ (hputm.trans (if_pos hc)), ?_, ?_, rfl⟩
    · exact regWord_storeFields r _ s.regs
    · exact fun r' hr' => regWord_storeFields_of_ne hr' _ s.regs
  · exact fun hc => congrArg _ (hputm.trans (if_neg (by omega)))

/-- Settles O7: the first transaction refuses the register before it asks the clock. -/
theorem maskedStatusWriteRefused : Obligations.MaskedStatusWriteRefused := by
  intro v m s h
  rw [show exec (.wrmIntStatus v m) s = _ from exec_wrmInstr .intStatus v m s]
  exact congrArg _ (callerOperation_of_first_refused h rfl rfl)

/-! ## Recording into the batch (R114, R115) -/

section

variable {op : Operation} {e : BatchEntry} {s : State}

/-- What recording an admitted entry makes of a quiet state: it is appended to an open batch, and otherwise refused
(R114, R115). -/
def recorded (e : BatchEntry) (s : State) : State :=
  match s.batch with
  | .recording es => { s with batch := .recording (es ++ [e]), caller := { s.caller with ret := .ok } }
  | .noBatch => callerRefused .noOpenBatch s
  | .submitted _ => callerRefused .appendAfterSubmit s

/-- An entry that is not admitted is refused before the batch is looked at. -/
theorem callerOperation_record_refused {why : SpecRefusal} (h : Quiet s) (hplan : plan op s = .actions [.record e])
    (he : entryRefusal e = some why) : callerOperation op s = callerRefused why s := by
  refine callerOperation_of_first_refused h hplan ?_
  simp only [act, actRecord, he]

/-- An admitted entry is appended or refused by what the batch is. -/
theorem callerOperation_record_admitted (h : Quiet s) (hplan : plan op s = .actions [.record e])
    (he : entryRefusal e = none) : callerOperation op s = recorded e s := by
  unfold recorded
  split
  · next es hb => rw [callerOperation_of_done h hplan (by simp only [act, actRecord, he, State.issued, hb]; rfl)]
  · next hb => exact callerOperation_of_first_refused h hplan (by simp only [act, actRecord, he, State.issued, hb])
  · next es hb => exact callerOperation_of_first_refused h hplan (by simp only [act, actRecord, he, State.issued, hb])

end

/-- Settles O10: of `INT_STATUS` only the write of 0 is admitted, and `recorded` says what an admitted entry does. -/
theorem recordWrite : Obligations.RecordWrite := by
  intro r v s h
  rw [exec_bwrInstr]
  congr 1
  split_ifs with hr
  · exact callerOperation_record_refused h rfl (if_pos hr)
  · exact callerOperation_record_admitted h rfl (if_neg hr)

/-- Settles O11: no masked write of `INT_STATUS` is admitted, and `recorded` says what an admitted entry does. -/
theorem recordMaskedWrite : Obligations.RecordMaskedWrite := by
  intro r v m s h
  rw [exec_bwrmInstr]
  congr 1
  split_ifs with hr
  · exact callerOperation_record_refused h rfl (if_pos hr)
  · exact callerOperation_record_admitted h rfl (if_neg hr)

/-! ## Executing the batch (R116, R185) -/

/-- Settles O38: with the clock on the entries have their effects in order (`executeBatch_of_admitted`), and with no
entry the clock is not asked. -/
theorem batchExecuteAppliesInOrder : Obligations.BatchExecuteAppliesInOrder := by
  intro es s hbatch hadmitted hclock
  rw [exec_evBatchExecute_of_submitted hbatch]
  rcases hclock with hc | rfl
  · exact congrArg _ (executeBatch_of_admitted hc fun e he => hadmitted e (hbatch ▸ he))
  · rfl

end Sys2Proof.Machine

/-! # The format translator (R95, R130 to R142) -/

namespace Sys2Proof.Machine

/-! ## The codes of the named formats (R95) -/

/-- The fourteen codes are distinct: each is read back as its own format. -/
@[simp] theorem formatOfCode_formatCode (p : PixelFormat) : formatOfCode (formatCode p) = some p := by
  cases p <;> rfl

theorem formatCode_inj {p q : PixelFormat} : formatCode p = formatCode q ↔ p = q := by
  refine ⟨fun h => ?_, congrArg formatCode⟩
  have hread := congrArg formatOfCode h
  rwa [formatOfCode_formatCode, formatOfCode_formatCode, Option.some_inj] at hread

theorem formatOfCode_of_unnamed {w : Word} (hw : ∀ p, w ≠ formatCode p) : formatOfCode w = none := by
  rw [formatOfCode, List.find?_eq_none]
  exact fun p _ hp => hw p (eq_of_beq hp).symm

/-! ## What a format translates to (R130 to R141) -/

@[simp] theorem translateFormat_formatCode (p : PixelFormat) : translateFormat (formatCode p) = translateNamed p := by
  rw [translateFormat, formatOfCode_formatCode]

theorem translateFormat_of_unnamed {w : Word} (hw : ∀ p, w ≠ formatCode p) : translateFormat w = translateDefault := by
  rw [translateFormat, formatOfCode_of_unnamed hw]

/-- A 32-bit value is the code of a named format, or of none. -/
theorem named_or_unnamed (w : Word) : (∃ p, w = formatCode p) ∨ ∀ p, w ≠ formatCode p := by
  rw [← not_exists]
  exact em _

/-- Settles O13: each named format has its own row, and the other words the default one. -/
theorem translateRows : Obligations.TranslateRows := by
  refine ⟨fun p => ?_, fun w hw => ?_⟩
  · rw [translateFormat_formatCode]
    cases p <;> rfl
  · rw [translateFormat_of_unnamed hw]
    exact ⟨rfl, rfl⟩

/-! ## The color matrix (R142) -/

theorem needsColorMatrix_translateNamed_iff (p : PixelFormat) :
    (translateNamed p).needsColorMatrix = true ↔ p = .uyvy ∨ p = .yuyv := by
  cases p <;> decide

theorem swap_translateNamed_of_needsColorMatrix {p : PixelFormat} (hp : (translateNamed p).needsColorMatrix = true) :
    (translateNamed p).swap = 0#1 := by
  rcases (needsColorMatrix_translateNamed_iff p).mp hp with rfl | rfl <;> rfl

/-- Settles O14: of the named formats `needsColorMatrix_translateNamed_iff` says it, and the default row has neither
flag. -/
theorem matrixFormatsAreUyvyAndYuyv : Obligations.MatrixFormatsAreUyvyAndYuyv := by
  intro w
  rcases named_or_unnamed w with ⟨p, rfl⟩ | hw
  · rw [translateFormat_formatCode, formatCode_inj, formatCode_inj]
    refine ⟨needsColorMatrix_translateNamed_iff p, fun ⟨hmatrix, hswap⟩ => ?_⟩
    rw [swap_translateNamed_of_needsColorMatrix hmatrix] at hswap
    exact absurd hswap (by decide)
  · rw [translateFormat_of_unnamed hw]
    exact ⟨iff_of_false nofun (not_or.mpr ⟨hw .uyvy, hw .yuyv⟩), nofun⟩

/-! ## `translate` as an operation (R130) -/

/-- In a quiet state an operation of one action that answers and changes nothing leaves its return value only. -/
theorem callerOperation_of_answer {op : Operation} {a : Action} {ret : Return} {s : State} (h : Quiet s)
    (hplan : plan op s = .actions [a]) (ha : ∀ t, act .caller a t = .done t ret) :
    callerOperation op s = { s with caller := { s.caller with ret := ret } } := by
  rw [callerOperation_of_done h hplan (ha _)]
  rfl

theorem exec_opTranslate_of_quiet (w : Word) {s : State} (h : Quiet s) :
    exec (.opTranslate w) s =
      .next { s with caller := { s.caller with ret := .translation (translateFormat w) } } :=
  congrArg Host.Outcome.next (callerOperation_of_answer h rfl fun _ => rfl)

/-- Settles O12: the answer is `translateFormat`'s (`exec_opTranslate_of_quiet`), read row by row for a named format; a
word that is none of the codes passes every test of the table. -/
theorem translateCompletes : Obligations.TranslateCompletes := by
  intro w s h
  rw [exec_opTranslate_of_quiet w h]
  congr 4
  rcases named_or_unnamed w with ⟨p, rfl⟩ | hw
  · rw [translateFormat_formatCode]
    cases p <;> rfl
  · have hcodes : ∀ p ∈ namedFormats, w ≠ formatCode p := fun p _ => hw p
    simp only [namedFormats, List.forall_mem_cons, formatCode] at hcodes
    simp only [translateFormat_of_unnamed hw, translateDefault, hcodes, or_self, if_false]

end Sys2Proof.Machine

/-! # The FIFO sizing operations (R150 to R153) -/

namespace Sys2Proof.Machine

/-- Settles O15: an operation of one action that answers the two fields (`callerOperation_of_answer`). -/
theorem computeFifoParamsCompletes : Obligations.ComputeFifoParamsCompletes := by
  intro c s h
  exact congrArg Host.Outcome.next (callerOperation_of_answer (op := .computeFifoParams c) h rfl fun _ => rfl)

/-- Settles O16: seven tenths of a capacity are at most the capacity, and division by 16 is monotone. -/
theorem thresholdAtMostPseudoSize : Obligations.ThresholdAtMostPseudoSize := by
  intro c
  have hbytes : c * 7 / 10 ≤ c := by omega
  exact Nat.div_le_div_right hbytes

/-! ## The capacity an instance resolves to (R150, R153) -/

theorem capacityAdmitted_iff {c : Word} : capacityAdmitted c = true ↔ 0 < c.toNat ∧ c.toNat < 2 ^ 19 := by
  rw [capacityAdmitted, Bool.and_eq_true, decide_eq_true_iff, decide_eq_true_iff]

/-- A nonzero override is chosen, else the variant's capacity (R150). -/
theorem chosenCapacity_eq (fifoOverride variantCapacity : Word) :
    chosenCapacity fifoOverride variantCapacity =
      if fifoOverride ≠ 0#32 then fifoOverride else variantCapacity :=
  (ite_not ..).symm

theorem resolveCapacity_of_admitted {o v : Word}
    (h : 0 < (chosenCapacity o v).toNat ∧ (chosenCapacity o v).toNat < 2 ^ 19) :
    resolveCapacity o v = some (chosenCapacity o v) :=
  if_pos (capacityAdmitted_iff.mpr h)

theorem resolveCapacity_of_not_admitted {o v : Word}
    (h : ¬(0 < (chosenCapacity o v).toNat ∧ (chosenCapacity o v).toNat < 2 ^ 19)) : resolveCapacity o v = none :=
  if_neg (capacityAdmitted_iff.not.mpr h)

section

variable {s : State} (h : Quiet s)
include h

/-- A capacity that is resolved is returned, and nothing else changes. -/
theorem callerOperation_resolveFifoCapacity_of_some {c : Word}
    (hc : resolveCapacity s.fifoOverride s.variant.fifoCapacity = some c) :
    callerOperation .resolveFifoCapacity s = { s with caller := { s.caller with ret := .capacity c } } := by
  rw [callerOperation_of_done h rfl (by simp only [act, actResolve, State.issued, hc]; rfl)]

/-- Where no capacity is resolved the operation is refused. -/
theorem callerOperation_resolveFifoCapacity_of_none
    (hnone : resolveCapacity s.fifoOverride s.variant.fifoCapacity = none) :
    callerOperation .resolveFifoCapacity s = callerRefused .capacityOutOfRange s :=
  callerOperation_of_first_refused h rfl (by simp only [act, actResolve, State.issued, hnone])

end

/-- Settles O17: the capacity of the statement is the chosen one (`chosenCapacity_eq`), and its range decides whether it
is resolved. -/
theorem resolveCapacityCompletes : Obligations.ResolveCapacityCompletes := by
  intro s c h hc
  rw [← chosenCapacity_eq] at hc
  subst hc
  refine congrArg Host.Outcome.next (?_ : callerOperation .resolveFifoCapacity s = _)
  split_ifs with hrange
  · exact callerOperation_resolveFifoCapacity_of_some h (resolveCapacity_of_admitted hrange)
  · exact callerOperation_resolveFifoCapacity_of_none h (resolveCapacity_of_not_admitted hrange)

end Sys2Proof.Machine

/-! # Running the plan of a caller's operation with no other agent in between (R68, R100, R171) -/

namespace Sys2Proof.Machine

/-! ## One action -/

/-- With the clock on a write to a register other than `INT_STATUS` is done (R111). -/
theorem act_wr_of_ne {c : Context} {r : Reg} {v : Word} {s : State} (hr : r ≠ .intStatus) (hc : 0 < s.clkCount) :
    act c (.wr r v) s = .done (emit (writeEvent c r v) { s with regs := storeFields r v s.regs }) .ok := by
  rw [act, actWrite, checkImmediate_regOffset r s rfl, if_neg (Nat.ne_of_gt hc)]
  exact if_neg hr

/-- With the clock off the first transaction of a masked write faults (R113, R117). -/
theorem act_maskedRead_unclocked {c : Context} {r : Reg} {s : State} (hr : r ≠ .intStatus) (hc : s.clkCount = 0) :
    act c (.maskedRead r) s = .fault (.unclockedAccess (regOffset s.params.offsets r)) := by
  rw [act, actMaskedRead, if_neg hr, checkImmediate_regOffset r s rfl, if_pos hc]

/-- An admitted entry is appended to the open batch (R114, R115). -/
theorem act_record_of_recording {c : Context} {e : BatchEntry} {es : List BatchEntry} {s : State}
    (hbatch : s.batch = .recording es) (he : entryRefusal e = none) :
    act c (.record e) s = .done { s with batch := .recording (es ++ [e]) } .ok := by
  simp only [act, actRecord, he, hbatch]

/-- Where no capacity is resolved the last action of `configure_geometry` is refused (R150, R172). -/
theorem act_putFifo_of_none {c : Context} {b : Bool} {s : State}
    (hcap : resolveCapacity s.fifoOverride s.variant.fifoCapacity = none) :
    act c (.putFifo b) s = .refuse .capacityOutOfRange := by
  simp only [act, actPutFifo, hcap]

/-- At an admitted capacity it is a plain write of the FIFO-control word (R172). -/
theorem act_putFifo_immediate {c : Context} {s : State} {cap : Word}
    (hcap : resolveCapacity s.fifoOverride s.variant.fifoCapacity = some cap) :
    act c (.putFifo false) s = act c (.wr .fifoCon (fifoWord cap)) s := by
  simp only [act, actPutFifo, hcap, Bool.false_eq_true, if_false]

/-- Into a batch it is the recording of that write (R171, R172). -/
theorem act_putFifo_batched {c : Context} {s : State} {cap : Word}
    (hcap : resolveCapacity s.fifoOverride s.variant.fifoCapacity = some cap) :
    act c (.putFifo true) s = act c (.record (.write .fifoCon (fifoWord cap))) s := by
  simp only [act, actPutFifo, hcap, if_true]

/-! ## The last action of an operation -/

section

variable {a : Action} {s : State} (hb : s.between = []) (htodo : s.caller.todo = [a])
include hb htodo

/-- The last action is done, and the operation with it. -/
theorem finishCaller_of_last_done {t : State} {ret : Return} (ha : act .caller a s = .done t ret) :
    finishCaller s = { t with caller := { t.caller with todo := [], ret := ret } } := by
  rw [finishCaller_step hb htodo, stepThread_of_done (c := .caller) htodo ha]
  rfl

/-- The last action is refused; what the operation did before it stays. -/
theorem finishCaller_of_last_refused {why : SpecRefusal} (ha : act .caller a s = .refuse why) :
    finishCaller s = refuseOperation .caller why s := by
  rw [finishCaller_step hb htodo, stepThread_of_refused (c := .caller) htodo ha]
  rfl

end

/-! ## Immediate writes (R111, R113, R172) -/

/-- A caller that was idle is idle again when no action is left. -/
theorem midway_idle {s : State} (hidle : s.caller.todo = []) (g : Regs) (n : Nat) (es : List Event) (o : Word)
    (x : Return) :
    s.midway g n es ⟨[], o, x⟩ =
      { s with regs := g, draws := n, history := es, caller := { s.caller with old := o, ret := x } } := by
  rw [← hidle]
  rfl

section

variable {s : State} (hb : s.between = []) (hc : 0 < s.clkCount) {g g' : Regs} {n : Nat} {es : List Event} {r : Reg}
  {v m o : Word} {rest : List Action} {x : Return}
include hb hc

/-- `finishCaller_put`, by the fields `g'` that the word stores. -/
theorem finishCaller_wr (hg : storeFields r v g = g') (hr : r ≠ .intStatus := by decide) :
    finishCaller (s.midway g n es ⟨.wr r v :: rest, o, x⟩)
      = finishCaller (s.midway g' n (es ++ [writeEvent .caller r v]) ⟨rest, o, .ok⟩) := by
  rw [finishCaller_put hb hc _ _ _ _ _ _ _ _ hr, hg]

/-- `finishCaller_putm`, by the fields `g'` that the merged word stores. -/
theorem finishCaller_wrm (hg : storeFields r (merge (regWord r g) v m) g = g') (hr : r ≠ .intStatus := by decide) :
    finishCaller (s.midway g n es ⟨.maskedRead r :: .maskedWrite r v m :: rest, o, x⟩)
      = finishCaller
          (s.midway g' (n + 1) (es ++ [readEvent .caller r n g, maskedWriteEvent .caller r v m])
            ⟨rest, regWord r g, .ok⟩) := by
  rw [finishCaller_putm hb hc _ _ _ _ _ _ _ _ _ hr, hg]

/-- At an admitted capacity the last action of `configure_geometry` stores the FIFO fields (R172). -/
theorem finishCaller_putFifo_immediate {c : Word}
    (hcap : resolveCapacity s.fifoOverride s.variant.fifoCapacity = some c)
    (hg : storeFields .fifoCon (fifoWord c) g = g') :
    finishCaller (s.midway g n es ⟨[.putFifo false], o, x⟩)
      = s.midway g' n (es ++ [writeEvent .caller .fifoCon (fifoWord c)]) ⟨[], o, .ok⟩ := by
  have hdone : act .caller (.putFifo false) (s.midway g n es ⟨[.putFifo false], o, x⟩) = .done _ _ :=
    (act_putFifo_immediate (by exact hcap)).trans (act_wr_of_ne nofun (by exact hc))
  rw [finishCaller_of_last_done (s := s.midway g n es _) hb rfl hdone, ← hg]
  rfl

end

/-! ## Recording into the open batch (R100, R114, R115, R171) -/

/-- The state of a caller in the middle of recording: the open batch holds `es`. -/
def State.recordingAt (s : State) (es : List BatchEntry) (t : Thread) : State :=
  { s with batch := .recording es, caller := t }

section

variable {s : State} (hb : s.between = []) {es : List BatchEntry} {e : BatchEntry} {rest : List Action} {o : Word}
  {x : Return}
include hb

theorem finishCaller_record (he : entryRefusal e = none) :
    finishCaller (s.recordingAt es ⟨.record e :: rest, o, x⟩) =
      finishCaller (s.recordingAt (es ++ [e]) ⟨rest, o, .ok⟩) := by
  rw [finishCaller_step (s := s.recordingAt es ⟨.record e :: rest, o, x⟩) hb rfl,
    stepThread_of_done (c := .caller) rfl (act_record_of_recording (s := s.recordingAt es _) rfl he)]
  rfl

/-- Admitted entries are appended to the open batch one after the other. -/
theorem finishCaller_records {new : List BatchEntry} (hadmitted : ∀ d ∈ e :: new, entryRefusal d = none) :
    finishCaller (s.recordingAt es ⟨(e :: new).map .record ++ rest, o, x⟩) =
      finishCaller (s.recordingAt (es ++ e :: new) ⟨rest, o, .ok⟩) := by
  induction new generalizing es e x with
  | nil => exact finishCaller_record hb (hadmitted e List.mem_cons_self)
  | cons e' new ih =>
    obtain ⟨he, hnew⟩ := List.forall_mem_cons.mp hadmitted
    refine (finishCaller_record hb he).trans ((ih hnew).trans ?_)
    rw [List.append_assoc]
    rfl

/-- At an admitted capacity the last action of `configure_geometry` records the FIFO-control word (R172). -/
theorem finishCaller_putFifo_batched {c : Word}
    (hcap : resolveCapacity s.fifoOverride s.variant.fifoCapacity = some c) :
    finishCaller (s.recordingAt es ⟨[.putFifo true], o, x⟩) =
      s.recordingAt (es ++ [.write .fifoCon (fifoWord c)]) ⟨[], o, .ok⟩ := by
  have hdone : act .caller (.putFifo true) (s.recordingAt es ⟨[.putFifo true], o, x⟩) = .done _ _ :=
    (act_putFifo_batched (by exact hcap)).trans (act_record_of_recording rfl rfl)
  rw [finishCaller_of_last_done (s := s.recordingAt es _) hb rfl hdone]
  rfl

end

/-- An operation whose plan begins with admitted entries records them into the open batch, and the rest of its plan is
left. -/
theorem callerOperation_of_record_plan {op : Operation} {es new : List BatchEntry} {e : BatchEntry}
    {rest : List Action} {s : State} (h : Quiet s) (hbatch : s.batch = .recording es)
    (hplan : plan op s = .actions ((e :: new).map .record ++ rest))
    (hadmitted : ∀ d ∈ e :: new, entryRefusal d = none) :
    callerOperation op s = finishCaller (s.recordingAt (es ++ e :: new) ⟨rest, s.caller.old, .ok⟩) := by
  rw [callerOperation_of_plan h hplan, ← finishCaller_records h.1 hadmitted (x := .nothing)]
  simp only [State.midway, State.recordingAt, ← hbatch]

end Sys2Proof.Machine

/-! # Controller operations with no other agent in between (R171 to R184) -/

namespace Sys2Proof.Machine

/-! ## An operation that is one masked write (R173 to R176) -/

/-- An operation of a quiet caller that is one masked write, by the fields `g` that its word stores. -/
theorem exec_of_putm {i : Instr} {op : Operation} {r : Reg} {v m : Word} {s : State} {g : Regs}
    (hexec : exec i s = .next (callerOperation op s)) (h : Quiet s) (hr : r ≠ .intStatus)
    (hplan : plan op s = .actions (putm false r v m))
    (hg : storeFields r (merge (regWord r s.regs) v m) s.regs = g) :
    exec i s =
      .next
        (if 0 < s.clkCount then
          { s with
            regs := g,
            draws := s.draws + 1,
            history := s.history ++ [readEvent .caller r s.draws s.regs, maskedWriteEvent .caller r v m],
            caller := { s.caller with old := regWord r s.regs, ret := .ok } }
        else callerUnclocked r s) := by
  rw [hexec, callerOperation_of_putm h hr hplan, hg]

/-- Settles O19: one masked write, which stores `ENGINE_EN` set (`storeFields_start`). -/
theorem startSetsEngineEnable : Obligations.StartSetsEngineEnable :=
  fun s h => exec_of_putm (op := .ctrl .start) rfl h nofun rfl (storeFields_start s.regs)

/-- Settles O20: one masked write, which stores `ENGINE_EN` cleared (`storeFields_stop`). -/
theorem stopClearsEngineEnable : Obligations.StopClearsEngineEnable :=
  fun s h => exec_of_putm (op := .ctrl .stop) rfl h nofun rfl (storeFields_stop s.regs)

/-- Settles O21: one masked write, which stores the FRAME_END enable set (`storeFields_enableVblank`). -/
theorem enableVblankSetsFrameEnd : Obligations.EnableVblankSetsFrameEnd :=
  fun s h => exec_of_putm (op := .ctrl .enableVblank) rfl h nofun rfl (storeFields_enableVblank s.regs)

/-- Settles O22: one masked write, which stores the FRAME_END enable cleared (`storeFields_disableVblank`). -/
theorem disableVblankClearsFrameEnd : Obligations.DisableVblankClearsFrameEnd :=
  fun s h => exec_of_putm (op := .ctrl .disableVblank) rfl h nofun rfl (storeFields_disableVblank s.regs)

/-! ## Operations of one action that reaches no register (R177, R178, R180 to R184) -/

/-- Settles O23: each is one action, which replaces the slot (`callerOperation_of_done`). -/
theorem callbackSlotReplaced : Obligations.CallbackSlotReplaced := fun fn ctx _ h =>
  ⟨congrArg Host.Outcome.next (callerOperation_of_done (op := .ctrl (.registerCallback fn ctx)) h rfl rfl),
    congrArg Host.Outcome.next (callerOperation_of_done (op := .ctrl .clearCallback) h rfl rfl)⟩

/-- The answer drawn is the next one placed, or else a free one; what is taken is dropped (R180, log entry 4). -/
theorem drawClockAnswer_eq (s : State) :
    drawClockAnswer s =
      (s.clockAnswers.headD (Config.freeAnswer s.draws),
        { s with
          clockAnswers := s.clockAnswers.tail,
          draws := if s.clockAnswers = [] then s.draws + 1 else s.draws }) := by
  obtain ⟨_, _, _, _, _, _, _, _, _, _, _, _, _, _, _, answers, _, _⟩ := s
  cases answers <;> rfl

/-- With the answer `ok` the caller's count goes up or stays (R180). -/
theorem act_clockEnable_caller {s : State} {ok : Bool}
    (hok : s.clockAnswers.headD (Config.freeAnswer s.draws) = ok) :
    act .caller .clockEnable s =
      .done
        { s with
          clkCount := if ok = true then s.clkCount + 1 else s.clkCount,
          history := s.history ++ [.clockResult (if ok = true then none else some .clockAcquisitionFailure)],
          clockAnswers := s.clockAnswers.tail,
          draws := if s.clockAnswers = [] then s.draws + 1 else s.draws }
        (if ok = true then .ok else .error .clockAcquisitionFailure) := by
  simp only [act, actClockEnable, drawClockAnswer_eq, hok]
  cases ok <;> rfl

/-- Settles O30: the one action draws the answer and branches on it (`act_clockEnable_caller`). -/
theorem clockEnableCompletes : Obligations.ClockEnableCompletes := by
  intro s ok h hok
  have hhead : s.clockAnswers.headD (Config.freeAnswer s.draws) = ok := by
    rw [hok]
    cases s.clockAnswers <;> rfl
  refine congrArg Host.Outcome.next (?_ : callerOperation (.ctrl .clockEnable) s = _)
  rw [callerOperation_of_done h rfl (act_clockEnable_caller hhead)]
  rfl

/-- Settles O31: a count of 0 is refused, any other is one less. -/
theorem clockDisableCompletes : Obligations.ClockDisableCompletes := by
  intro s h
  refine congrArg Host.Outcome.next (?_ : callerOperation (.ctrl .clockDisable) s = _)
  split_ifs with hc
  · exact callerOperation_of_first_refused h rfl (if_pos hc)
  · rw [callerOperation_of_done (op := .ctrl .clockDisable) h rfl (if_neg hc)]
    rfl

/-- Settles O32: the action is refused in this context whatever the state. -/
theorem clockEnableRefusedInIrq : Obligations.ClockEnableRefusedInIrq :=
  fun _ _ htodo => stepThread_of_refused (c := .irq) htodo rfl

/-- Settles O33: one action that answers the list (`callerOperation_of_done`). -/
theorem queryFormatsCompletes : Obligations.QueryFormatsCompletes := by
  intro s h
  refine congrArg Host.Outcome.next (?_ : callerOperation (.ctrl .querySupportedFormats) s = _)
  rw [callerOperation_of_done h rfl rfl]
  rfl

/-- Settles O34: the action checks the capability, then the batch. -/
theorem batchBeginCompletes : Obligations.BatchBeginCompletes := by
  intro s h
  refine congrArg Host.Outcome.next (?_ : callerOperation (.ctrl .batchBegin) s = _)
  split_ifs with hcapable hbatch
  · exact callerOperation_of_first_refused h rfl (if_pos hcapable)
  · exact callerOperation_of_first_refused h rfl ((if_neg hcapable).trans (if_pos hbatch))
  · rw [callerOperation_of_done (op := .ctrl .batchBegin) h rfl ((if_neg hcapable).trans (if_neg hbatch))]
    rfl

/-- Settles O35: the action asks for an open batch. -/
theorem batchSubmitCompletes : Obligations.BatchSubmitCompletes := by
  intro s h
  refine congrArg Host.Outcome.next (?_ : callerOperation (.ctrl .batchSubmit) s = _)
  cases hbatch : s.batch with
  | recording es => rw [callerOperation_of_done h rfl (by simp only [act, actBatchSubmit, State.issued, hbatch]; rfl)]
  | noBatch => exact callerOperation_of_first_refused h rfl (by simp only [act, actBatchSubmit, State.issued, hbatch])
  | submitted es =>
    exact callerOperation_of_first_refused h rfl (by simp only [act, actBatchSubmit, State.issued, hbatch])

/-! ## The batch argument of the two configure operations (R171, R179) -/

/-- With an open batch a capable controller admits `use_batch` 1 (R171). -/
theorem checkBatchArg_one_of_recording {es : List BatchEntry} {s : State} (hcapable : s.batchCapable = true)
    (hbatch : s.batch = .recording es) : checkBatchArg 1#32 s = none := by
  simp only [checkBatchArg, hcapable, hbatch]
  rfl

/-- On a capable controller `use_batch` 1 is refused unless a batch is open (R171). -/
theorem checkBatchArg_one_of_not_recording {s : State} (hcapable : s.batchCapable = true)
    (hbatch : ∀ es, s.batch ≠ .recording es) : checkBatchArg 1#32 s = some .noOpenBatch := by
  simp only [checkBatchArg, hcapable, if_true]
  cases hb : s.batch with
  | recording es => exact absurd hb (hbatch es)
  | noBatch => rfl
  | submitted es => rfl

theorem plan_configureGeometry_refused {a b c d u : Word} {s : State} {why : SpecRefusal}
    (hu : checkBatchArg u s = some why) : plan (.ctrl (.configureGeometry a b c d u)) s = .refuse why := by
  simp only [plan, ctrlPlan, hu]

theorem plan_configureLayer_refused {b c d u : Word} {s : State} {why : SpecRefusal}
    (hu : checkBatchArg u s = some why) : plan (.ctrl (.configureLayer 0#32 b c d u)) s = .refuse why := by
  simp only [plan, ctrlPlan, hu, ne_eq, not_true_eq_false, if_false]

/-- Settles O26: `checkBatchArg` refuses each of the three arguments, and `configure_layer` asks the index before it. -/
theorem configureRefusedBeforeAnyWrite : Obligations.ConfigureRefusedBeforeAnyWrite := by
  intro a b c d u s h
  constructor
  · intro why hwhy
    have hu : checkBatchArg u s = some why := by
      rcases hwhy with ⟨rfl, hcapable, rfl⟩ | ⟨rfl, hcapable, hbatch, rfl⟩ | ⟨hu0, hu1, rfl⟩
      · exact if_pos ⟨rfl, hcapable⟩
      · exact checkBatchArg_one_of_not_recording hcapable hbatch
      · simp only [checkBatchArg, hu0, hu1, false_and, if_false]
    refine ⟨congrArg Host.Outcome.next (callerOperation_of_refused h (plan_configureGeometry_refused hu)), ?_⟩
    rintro rfl
    exact congrArg Host.Outcome.next (callerOperation_of_refused h (plan_configureLayer_refused hu))
  · intro ha
    exact congrArg Host.Outcome.next
      (callerOperation_of_refused (op := .ctrl (.configureLayer a b c d u)) h (if_pos ha))

/-! ## `configure_geometry` (R172) -/

/-- A capacity that is resolved is admitted (R150, R153). -/
theorem range_of_resolveCapacity {o v c : Word} (hc : resolveCapacity o v = some c) :
    0 < c.toNat ∧ c.toNat < 2 ^ 19 := by
  rw [resolveCapacity, Option.ite_none_right_eq_some] at hc
  obtain ⟨hadmitted, heq⟩ := hc
  cases heq
  exact capacityAdmitted_iff.mp hadmitted

/-- The three fields that the FIFO-control word of an admitted capacity stores (R31, R90, R155). -/
theorem storeFields_fifoWord {c : Word} (hpos : 0 < c.toNat) (hlt : c.toNat < 2 ^ 19) (g : Regs) :
    storeFields .fifoCon (fifoWord c) g =
      { g with
        fifoUnderflowEn := 1#1,
        fifoPseudoSize := BitVec.ofNat 15 (c.toNat / 16),
        fifoThreshold := BitVec.ofNat 16 (c.toNat * 7 / 10 / 16) } := by
  obtain ⟨-, hunderflow, hsize, hthreshold⟩ := fifoWordParts c g hpos hlt
  rw [← hsize, ← hthreshold, ← hunderflow, BitVec.ofNat_toNat, BitVec.ofNat_toNat, BitVec.setWidth_eq,
    BitVec.setWidth_eq]
  rfl

/-- With the clock on `configure_geometry` writes width and height, and its last action is left. -/
theorem callerOperation_configureGeometry_immediate {width height refreshRate bpc : Word} {s : State} (h : Quiet s)
    (hc : 0 < s.clkCount) :
    callerOperation (.ctrl (.configureGeometry width height refreshRate bpc 0#32)) s =
      finishCaller
        (s.midway { s.regs with width := width.extractLsb' 0 12, height := height.extractLsb' 0 20 } (s.draws + 2)
          (s.history ++
            [readEvent .caller .sizeCon0 s.draws s.regs, maskedWriteEvent .caller .sizeCon0 width widthMask,
             readEvent .caller .sizeCon1 (s.draws + 1) s.regs, maskedWriteEvent .caller .sizeCon1 height heightMask])
          ⟨[.putFifo false], regWord .sizeCon1 s.regs, .ok⟩) := by
  refine (callerOperation_of_plan h (todo := geometryPlan false width height) rfl).trans ?_
  refine (finishCaller_wrm h.1 hc (storeFields_width _ _)).trans ?_
  refine (finishCaller_wrm h.1 hc (storeFields_height _ _)).trans ?_
  rw [List.append_assoc]
  rfl

/-- Settles O24: after the two masked writes (`callerOperation_configureGeometry_immediate`) the last action writes the
FIFO-control word or is refused by the capacity; with the clock off the first access faults. -/
theorem geometryImmediate : Obligations.GeometryImmediate := by
  intro width height refreshRate bpc s h
  refine ⟨fun c hc hcap => congrArg Host.Outcome.next ?_, fun hc hcap => congrArg Host.Outcome.next ?_,
    fun hc => congrArg Host.Outcome.next ?_⟩
  · obtain ⟨hpos, hlt⟩ := range_of_resolveCapacity hcap
    refine (callerOperation_configureGeometry_immediate h hc).trans ?_
    rw [finishCaller_putFifo_immediate h.1 hc hcap (storeFields_fifoWord hpos hlt _), midway_idle h.2,
      List.append_assoc]
    rfl
  · refine (callerOperation_configureGeometry_immediate h hc).trans ?_
    rw [finishCaller_of_last_refused (s := s.midway _ _ _ ⟨[.putFifo false], _, _⟩) h.1 rfl
      (act_putFifo_of_none hcap)]
    simp only [h.2]
    rfl
  · exact callerOperation_of_first_unclocked h rfl (act_maskedRead_unclocked (r := .sizeCon0) nofun hc)

/-- The entries of `configure_geometry` for the width and the height (R100, R172). -/
def sizeEntries (width height : Word) : List BatchEntry :=
  [.writeMasked .sizeCon0 width widthMask, .writeMasked .sizeCon1 height heightMask]

/-- Settles O25: two entries are recorded, and the last action records the third or is refused by the capacity. -/
theorem geometryBatched : Obligations.GeometryBatched := by
  intro width height refreshRate bpc es s h hcapable hbatch
  have hplan : plan (.ctrl (.configureGeometry width height refreshRate bpc 1#32)) s =
      .actions ((sizeEntries width height).map .record ++ [.putFifo true]) := by
    simp only [plan, ctrlPlan, checkBatchArg_one_of_recording hcapable hbatch]
    rfl
  have hsize : callerOperation (.ctrl (.configureGeometry width height refreshRate bpc 1#32)) s = _ :=
    callerOperation_of_record_plan h hbatch hplan (by simp [entryRefusal])
  refine ⟨fun c hcap => congrArg Host.Outcome.next (hsize.trans ?_),
    fun hcap => congrArg Host.Outcome.next (hsize.trans ?_)⟩
  · rw [finishCaller_putFifo_batched h.1 hcap, List.append_assoc]
    simp only [h.2]
    rfl
  · rw [finishCaller_of_last_refused (s := s.recordingAt _ ⟨[.putFifo true], _, _⟩) h.1 rfl
      (act_putFifo_of_none hcap)]
    simp only [h.2]
    rfl

/-! ## `configure_layer` (R179) -/

/-- The fields that the last four writes of `configure_layer` store (R179). -/
def withSurface (address pitch : Word) (p : Params) (g : Regs) : Regs :=
  { g with startAddr := address, pitch := pitch.extractLsb' 0 16, gmc := p.gmc, modeMemory := 1#1 }

/-- The last four writes of `configure_layer`, the same for every format (R179). -/
def surfacePlan (address pitch : Word) (p : Params) : List Action :=
  [.wr .memStartAddr address, .wr .memSrcPitch (pitchWord pitch), .wr .memGmcSetting0 p.gmc, .maskedRead .globalCon,
   .maskedWrite .globalCon modeMemoryBit modeMemoryBit]

/-- The `Access` events of those four writes. -/
def surfaceEvents (address pitch : Word) (p : Params) (n : Nat) (g : Regs) : List Event :=
  [writeEvent .caller .memStartAddr address, writeEvent .caller .memSrcPitch (pitchWord pitch),
   writeEvent .caller .memGmcSetting0 p.gmc, readEvent .caller .globalCon n g,
   maskedWriteEvent .caller .globalCon modeMemoryBit modeMemoryBit]

theorem layerPlan_immediate (p : Params) (address pitch format : Word) :
    layerPlan false p address pitch format =
      .wr .memCon (memConWord p.hwCodes (translateFormat format)) ::
        (matrixPlan false p (translateFormat format).needsColorMatrix ++ surfacePlan address pitch p) := by
  simp [layerPlan, put, putm, surfacePlan]

section

variable {s : State} (hb : s.between = []) (hc : 0 < s.clkCount) {g : Regs} {n : Nat} {es : List Event} {o : Word}
  {x : Return}
include hb hc

theorem finishCaller_surfacePlan (address pitch : Word) :
    finishCaller (s.midway g n es ⟨surfacePlan address pitch s.params, o, x⟩) =
      s.midway (withSurface address pitch s.params g) (n + 1) (es ++ surfaceEvents address pitch s.params n g)
        ⟨[], regWord .globalCon g, .ok⟩ := by
  refine (finishCaller_wr hb hc rfl).trans ?_
  refine (finishCaller_wr hb hc (storeFields_pitch _ _)).trans ?_
  refine (finishCaller_wr hb hc rfl).trans ?_
  refine (finishCaller_wrm hb hc (storeFields_modeMemory _)).trans ?_
  rw [finishCaller_of_idle rfl]
  simp only [List.append_assoc]
  rfl

end

section

variable {address pitch format : Word} {s : State} (h : Quiet s)
include h

/-- With the clock on `configure_layer` writes the memory format first (R179). -/
theorem callerOperation_configureLayer_immediate (hc : 0 < s.clkCount) :
    callerOperation (.ctrl (.configureLayer 0#32 address pitch format 0#32)) s =
      finishCaller
        (s.midway
          { s.regs with
            inputFormat := hwCodeValue s.params.hwCodes (translateFormat format).hwCode,
            inputSwap := (translateFormat format).swap }
          s.draws (s.history ++ [writeEvent .caller .memCon (memConWord s.params.hwCodes (translateFormat format))])
          ⟨matrixPlan false s.params (translateFormat format).needsColorMatrix ++ surfacePlan address pitch s.params,
            s.caller.old, .ok⟩) := by
  rw [callerOperation_of_plan h (todo := layerPlan false s.params address pitch format) rfl, layerPlan_immediate]
  exact finishCaller_wr h.1 hc (storeFields_memCon _ _ _)

/-- With the clock off it faults there (R78). -/
theorem callerOperation_configureLayer_unclocked (hc : s.clkCount = 0) :
    callerOperation (.ctrl (.configureLayer 0#32 address pitch format 0#32)) s = callerUnclocked .memCon s :=
  callerOperation_of_first_unclocked h (congrArg Plan.actions (layerPlan_immediate ..)) (act_wr_unclocked hc)

end

/-- Settles O27: after the memory format the matrix is enabled and selected (`storeFields_matrixOn`,
`storeFields_mtxSel`), then the surface is set (`finishCaller_surfacePlan`). -/
theorem layerImmediateYuv : Obligations.LayerImmediateYuv := by
  intro address pitch format s h hmatrix
  refine ⟨fun hc => congrArg Host.Outcome.next ?_,
    fun hc => congrArg Host.Outcome.next (callerOperation_configureLayer_unclocked h hc)⟩
  refine (callerOperation_configureLayer_immediate h hc).trans ?_
  rw [hmatrix]
  refine (finishCaller_wrm h.1 hc (storeFields_matrixOn _)).trans ?_
  refine (finishCaller_wrm h.1 hc (storeFields_mtxSel _ _)).trans ?_
  refine (finishCaller_surfacePlan h.1 hc address pitch).trans ?_
  rw [midway_idle h.2]
  simp only [List.append_assoc]
  rfl

/-- Settles O28: after the memory format the matrix is disabled (`storeFields_matrixOff`) and its selector not
accessed, then the surface is set (`finishCaller_surfacePlan`). -/
theorem layerImmediateRgb : Obligations.LayerImmediateRgb := by
  intro address pitch format s h hmatrix
  refine ⟨fun hc => congrArg Host.Outcome.next ?_,
    fun hc => congrArg Host.Outcome.next (callerOperation_configureLayer_unclocked h hc)⟩
  refine (callerOperation_configureLayer_immediate h hc).trans ?_
  rw [hmatrix]
  refine (finishCaller_wrm h.1 hc (storeFields_matrixOff _)).trans ?_
  refine (finishCaller_surfacePlan h.1 hc address pitch).trans ?_
  rw [midway_idle h.2]
  simp only [List.append_assoc]
  rfl

/-- The entries of `configure_layer` after the first, which sets the memory format (R100, R179). -/
def layerEntries (p : Params) (address pitch : Word) (needsColorMatrix : Bool) : List BatchEntry :=
  (if needsColorMatrix = true then
      [.writeMasked .sizeCon0 matrixEnableBit matrixEnableBit, .writeMasked .sizeCon0 (bt601Word p) mtxSelMask]
    else [.writeMasked .sizeCon0 0#32 matrixEnableBit])
    ++ [.write .memStartAddr address, .write .memSrcPitch (pitchWord pitch), .write .memGmcSetting0 p.gmc,
        .writeMasked .globalCon modeMemoryBit modeMemoryBit]

theorem layerPlan_batched (p : Params) (address pitch format : Word) :
    layerPlan true p address pitch format =
      (BatchEntry.write .memCon (memConWord p.hwCodes (translateFormat format)) ::
        layerEntries p address pitch (translateFormat format).needsColorMatrix).map .record := by
  unfold layerPlan layerEntries matrixPlan
  split <;> rfl

theorem layerEntries_admitted (p : Params) (address pitch : Word) (needsColorMatrix : Bool) :
    ∀ d ∈ layerEntries p address pitch needsColorMatrix, entryRefusal d = none := by
  cases needsColorMatrix <;> simp [layerEntries, entryRefusal]

/-- Settles O29: the plan is a list of admitted entries (`layerPlan_batched`), which are recorded in order. -/
theorem layerBatched : Obligations.LayerBatched := by
  intro address pitch format es s h hcapable hbatch
  have hplan : plan (.ctrl (.configureLayer 0#32 address pitch format 1#32)) s =
      .actions (layerPlan true s.params address pitch format) := by
    simp only [plan, ctrlPlan, checkBatchArg_one_of_recording hcapable hbatch]
    rfl
  rw [layerPlan_batched, ← List.append_nil (List.map _ _)] at hplan
  have hrun := callerOperation_of_record_plan h hbatch hplan
    (List.forall_mem_cons.mpr ⟨rfl, layerEntries_admitted _ _ _ _⟩)
  refine congrArg Host.Outcome.next (hrun.trans ?_)
  rw [finishCaller_of_idle rfl]
  simp only [h.2]
  rfl

/-! ## A batch execution that stops, or does not start (R78, R185) -/

/-- The register of a batch entry. -/
def entryReg (e : BatchEntry) : Reg :=
  match e with
  | .write r _ => r
  | .writeMasked r _ _ => r

theorem applyEntry_unclocked {e : BatchEntry} {s : State} (hc : s.clkCount = 0) :
    applyEntry e s = .fault (.unclockedAccess (regOffset s.params.offsets (entryReg e))) := by
  cases e <;> exact if_pos hc

/-- With the clock off an execution stops at its first entry (R116, log entry 9). -/
theorem executeBatch_unclocked {e : BatchEntry} {es : List BatchEntry} {s : State} (hc : s.clkCount = 0) :
    executeBatch (e :: es) s =
      recordFault (.unclockedAccess (regOffset s.params.offsets (entryReg e))) s := by
  simp only [executeBatch, applyEntries, applyEntry_unclocked hc]

/-- Settles O39: the first entry faults (`executeBatch_unclocked`), and without a submitted batch `exec` answers no
state. -/
theorem batchExecuteUnclockedOrNotEnabled : Obligations.BatchExecuteUnclockedOrNotEnabled := by
  intro s
  constructor
  · intro e es hbatch hc
    rw [exec_evBatchExecute_of_submitted hbatch, executeBatch_unclocked hc]
    cases e <;> rfl
  · intro hbatch
    simp only [exec, execEvBatchExecute]
    split
    · next es hes => exact absurd hes (hbatch es)
    · rfl
    · rfl

/-! ## The slot read of a handler run (R206, R239) -/

theorem irqStep_readSlot_of_some {s : State} {cb : Callback} (hphase : s.phase = .readSlot)
    (hcb : s.callback = some cb) : irqStep s = { s with phase := .invoke cb } := by
  simp only [irqStep, hphase, hcb]

theorem irqStep_invoke {s : State} {cb : Callback} (hphase : s.phase = .invoke cb) :
    irqStep s = emit (.notify cb.ctx) { s with phase := .body (callbackBody s.params cb) } := by
  simp only [irqStep, hphase]

/-- Settles O46: the phase after the slot read carries the callback (`irqStep_readSlot_of_some`), and the notification
reads it there. -/
theorem clearedCallbackMayStillRun : Obligations.ClearedCallbackMayStillRun := by
  intro cb s hphase hcb
  rw [irqStep_readSlot_of_some hphase hcb, irqStep_invoke rfl]
  rfl

end Sys2Proof.Machine

/-! # The interrupt line and the engine's events (R201, R203, R205) -/

namespace Sys2Proof.Machine

/-- The position of a source's bit (R24). -/
def sourceIndex (x : Source) : Nat :=
  match x with
  | .regUpdate => 0
  | .frameStart => 1
  | .frameEnd => 2
  | .eofAbnormal => 3
  | .fifoUnderflow => 4
  | .targetLine => 5

theorem sourceBit_eq_twoPow (x : Source) : sourceBit x = BitVec.twoPow 6 (sourceIndex x) := by
  cases x <;> rfl

theorem exists_sourceIndex_eq {i : Nat} (hi : i < 6) : ∃ x, sourceIndex x = i := by
  interval_cases i
  exacts [⟨.regUpdate, rfl⟩, ⟨.frameStart, rfl⟩, ⟨.frameEnd, rfl⟩, ⟨.eofAbnormal, rfl⟩, ⟨.fifoUnderflow, rfl⟩,
    ⟨.targetLine, rfl⟩]

/-- A source is in a set exactly where the set's bit at its position is one. -/
theorem and_sourceBit_ne_zero_iff (v : Sources) (x : Source) :
    v &&& sourceBit x ≠ 0#6 ↔ v.getLsbD (sourceIndex x) = true := by
  have hbit : sourceBit x ≠ 0#6 := by cases x <;> decide
  rw [sourceBit_eq_twoPow] at hbit ⊢
  rw [BitVec.and_twoPow]
  split_ifs with h <;> simp [h, hbit]

/-- A set that is not empty holds a source: the six bits are those of the six sources (R24). -/
theorem ne_zero_iff_exists_source (v : Sources) : v ≠ 0#6 ↔ ∃ x, v &&& sourceBit x ≠ 0#6 := by
  simp only [and_sourceBit_ne_zero_iff]
  constructor
  · intro hv
    by_contra hnone
    refine hv (BitVec.eq_of_getLsbD_eq fun i hi => ?_)
    obtain ⟨x, rfl⟩ := exists_sourceIndex_eq hi
    simpa using fun hx => hnone ⟨x, hx⟩
  · rintro ⟨x, hx⟩ rfl
    simp at hx

theorem irqState_eq_signaled_iff (g : Regs) : irqState g = .signaled ↔ g.intEnable &&& g.intStatus ≠ 0#6 := by
  simp [irqState, lineAsserted]

theorem irqState_eq_idle_iff (g : Regs) : irqState g = .idle ↔ g.intEnable &&& g.intStatus = 0#6 := by
  simp [irqState, lineAsserted]

/-- The line is asserted exactly where some source is enabled and pending (R201). -/
theorem irqState_eq_signaled_iff_exists (g : Regs) :
    irqState g = .signaled ↔ ∃ x, g.intEnable &&& sourceBit x ≠ 0#6 ∧ g.intStatus &&& sourceBit x ≠ 0#6 := by
  rw [irqState_eq_signaled_iff, ne_zero_iff_exists_source]
  simp only [and_sourceBit_ne_zero_iff, BitVec.getLsbD_and, Bool.and_eq_true]

/-- Settles O47: the line as an iff over the sources, and each transition from the two words it compares. -/
theorem irqStateTransitions : Obligations.IrqStateTransitions := by
  intro g bits
  refine ⟨irqState_eq_signaled_iff_exists g, fun hbits => ?_, fun hpending => ?_, ?_, fun honly => ?_⟩
  · rw [irqState_eq_signaled_iff, setStatus, BitVec.and_or_distrib_left, Ne, BitVec.or_eq_zero_iff,
      BitVec.and_comm _ bits]
    exact fun h => hbits h.2
  · have henabled : (g.intEnable ||| sourceBit .frameEnd).getLsbD (sourceIndex .frameEnd) = true := by
      simp [sourceBit, sourceIndex]
    exact (irqState_eq_signaled_iff_exists _).mpr
      ⟨.frameEnd, (and_sourceBit_ne_zero_iff _ _).mpr henabled, hpending⟩
  · rw [irqState_eq_idle_iff, clearStatus, BitVec.and_zero]
  · simp [irqState_eq_idle_iff, honly]

theorem engineMayRaise_iff (s : State) :
    engineMayRaise s = true ↔ s.regs.engineEn = 1#1 ∨ s.params.eventsWhileStopped = true := by
  simp [engineMayRaise]

/-- Settles O37: where the engine may raise events (`engineMayRaise_iff`) the next state is that of `raiseStatus`. -/
theorem engineEventSetsStatus : Obligations.EngineEventSetsStatus := by
  intro bits s
  rw [exec, execEvEngineEvent]
  simp only [engineMayRaise_iff]
  rfl

/-! ## Bind (R211, R230) -/

/-- Settles O60: bind fails without a register space or an interrupt line, and otherwise its warning is
`configurationInvalid`. -/
theorem bindErrors : Obligations.BindErrors := by
  intro i
  refine ⟨fun hmissing => if_neg ?_, fun hspace hline => ⟨_, (if_pos ?_).trans (congrArg _ ?_)⟩⟩
  · rcases hmissing with h | h <;> simp [h]
  · rw [hspace, hline]
    rfl
  · simp [configurationInvalid]

/-! ## No handler run starts in another (R204, R209) -/

/-- Settles O45: a delivery takes place only in the phase `idle`. -/
theorem handlerRunsDoNotOverlap : Obligations.HandlerRunsDoNotOverlap := fun _ _ hphase => if_pos (.inr hphase)

end Sys2Proof.Machine

/-! # A handler run, step by step (R206, R207, R212, R213) -/

namespace Sys2Proof.Machine

theorem irqStep_readSlot_of_none {s : State} (hphase : s.phase = .readSlot) (hcb : s.callback = none) :
    irqStep s = handlerReturn .notHandled s := by
  simp only [irqStep, hphase, hcb]

theorem irqStep_issue {op : CtrlOp} {ops : List CtrlOp} {s : State} (hphase : s.phase = .body (op :: ops))
    (htodo : s.irq.todo = []) : irqStep s = issue .irq (.ctrl op) { s with phase := .body ops } := by
  simp only [irqStep, hphase, htodo]

theorem irqStep_return {s : State} (hphase : s.phase = .body []) (htodo : s.irq.todo = []) :
    irqStep s = handlerReturn .handled s := by
  simp only [irqStep, hphase, htodo]

section

variable {a : Action} {rest : List Action} {ops : List CtrlOp} {s : State} (hphase : s.phase = .body ops)
  (htodo : s.irq.todo = a :: rest)
include hphase htodo

/-- An action of the body that is done. -/
theorem irqStep_of_done {t : State} {ret : Return} (ha : act .irq a s = .done t ret) :
    irqStep s = setThread .irq { t.irq with todo := rest, ret := ret } t := by
  have hstep := stepThread_of_done (c := .irq) htodo ha
  simp only [irqStep, hphase, htodo, hstep]
  split
  · next hret => exact absurd hret ((doneFrame_of_act ha).ret _)
  · rfl

/-- A refusal ends its operation and not the run (R213, log entry 10). -/
theorem irqStep_of_refused {why : SpecRefusal} (ha : act .irq a s = .refuse why) :
    irqStep s = refuseOperation .irq why s := by
  simp only [irqStep, hphase, htodo, stepThread_of_refused (c := .irq) htodo ha]
  rfl

/-- A fault ends the run (R206, R212). -/
theorem irqStep_of_fault {f : ModelFault} (ha : act .irq a s = .fault f) :
    irqStep s = { faultOperation .irq f s with phase := .idle } := by
  simp only [irqStep, hphase, htodo, stepThread_of_fault (c := .irq) htodo ha]
  rfl

end

/-! ## A handler run ends, whatever the other agents do in between (R204, R209) -/

/-- At an interleaving point of a handler run the other agents leave the run where it stands. -/
theorem move_irq_phase (m : Move) (s : State) : (move (some .irq) m s).phase = s.phase := by
  cases m with
  | engineEvent bits => simp only [move]; split <;> rfl
  | batchExecute =>
    simp only [move]
    split
    · exact executeBatch_phase _ s
    · rfl
    · rfl
  | deliver => simp [move]
  | irqStep => rfl
  | issue op =>
    simp only [move]
    split
    · rfl
    · exact issue_phase .caller op s
  | callerStep => exact stepThread_phase .caller s

theorem moves_irq_phase (ms : List Move) (s : State) : (moves (some .irq) ms s).phase = s.phase := by
  induction ms generalizing s with
  | nil => rfl
  | cons m rest ih => exact (ih _).trans (move_irq_phase m s)

theorem interleave_irq_phase (s : State) : (interleave (some .irq) s).phase = s.phase := by
  unfold interleave
  split
  · rfl
  · exact moves_irq_phase _ _

/-- How many steps bring a run to its body, or end it. -/
def stepsToBody (s : State) : Nat :=
  match s.phase with
  | .clear => 3
  | .readSlot => 2
  | .invoke _ => 1
  | _ => 0

theorem stepsToBody_interleave (s : State) : stepsToBody (interleave (some .irq) s) = stepsToBody s := by
  simp only [stepsToBody, interleave_irq_phase]

theorem bodySteps_interleave (s : State) : bodySteps (interleave (some .irq) s) = bodySteps s := by
  simp only [bodySteps, interleave_irq_phase, show (interleave (some .irq) s).irq = s.irq from thread_interleave .irq s]

@[simp] theorem length_put (b : Bool) (r : Reg) (v : Word) : (put b r v).length = 1 := by
  cases b <;> rfl

theorem length_putm (b : Bool) (r : Reg) (v m : Word) : (putm b r v m).length ≤ 2 := by
  cases b
  · exact Nat.le_refl 2
  · exact Nat.le_succ 1

theorem length_geometryPlan (b : Bool) (width height : Word) : (geometryPlan b width height).length ≤ 5 := by
  have hwidth := length_putm b .sizeCon0 width widthMask
  have hheight := length_putm b .sizeCon1 height heightMask
  simp only [geometryPlan, List.length_append, List.length_singleton]
  omega

theorem length_matrixPlan (b : Bool) (p : Params) (matrix : Bool) : (matrixPlan b p matrix).length ≤ 4 := by
  unfold matrixPlan
  split
  · rw [List.length_append]
    exact Nat.add_le_add (length_putm ..) (length_putm ..)
  · exact (length_putm ..).trans (by decide)

theorem length_layerPlan (b : Bool) (p : Params) (address pitch format : Word) :
    (layerPlan b p address pitch format).length ≤ 10 := by
  have hmatrix := length_matrixPlan b p (translateFormat format).needsColorMatrix
  have hmode := length_putm b .globalCon modeMemoryBit modeMemoryBit
  simp only [layerPlan, List.length_append, length_put]
  omega

/-- The longest plan is that of `configure_layer`, with ten actions (R179). -/
theorem length_ctrlPlan {op : CtrlOp} {s : State} {todo : List Action} (h : ctrlPlan op s = .actions todo) :
    todo.length ≤ 10 := by
  cases op <;> simp only [ctrlPlan] at h
  case configureGeometry =>
    split at h <;> cases h
    exact (length_geometryPlan ..).trans (by decide)
  case configureLayer =>
    split_ifs at h
    split at h <;> cases h
    exact length_layerPlan ..
  all_goals
    cases h
    simp [putm]

/-- An operation of the body that is issued has at most ten actions, and none where it is refused. -/
theorem length_todo_issue (op : CtrlOp) (s : State) : (issue .irq (.ctrl op) s).irq.todo.length ≤ 10 := by
  unfold issue
  split
  · next hplan => exact length_ctrlPlan hplan
  · exact Nat.zero_le 10

/-- A step of the body leaves fewer of them: an action less, or eleven less for an operation that is issued, or none
after the return or a fault. -/
theorem bodySteps_irqStep {ops : List CtrlOp} {s : State} (hphase : s.phase = .body ops) :
    stepsToBody (irqStep s) = 0 ∧ bodySteps (irqStep s) < bodySteps s := by
  cases htodo : s.irq.todo with
  | cons a rest =>
    cases ha : act .irq a s with
    | done t ret =>
      have hphase' : t.phase = .body ops := (doneFrame_of_act ha).phase.trans hphase
      simp [irqStep_of_done hphase htodo ha, stepsToBody, bodySteps, hphase, hphase', htodo]
    | refuse why => simp [irqStep_of_refused hphase htodo ha, stepsToBody, bodySteps, hphase, htodo]
    | fault f => simp [irqStep_of_fault hphase htodo ha, stepsToBody, bodySteps, hphase]
  | nil =>
    cases ops with
    | nil => simp [irqStep_return hphase htodo, stepsToBody, bodySteps, hphase]
    | cons op ops =>
      have hlength := length_todo_issue op { s with phase := .body ops }
      rw [irqStep_issue hphase htodo]
      refine ⟨by simp [stepsToBody], ?_⟩
      simp only [bodySteps, issue_phase, hphase, htodo, List.length_cons, List.length_nil]
      omega

/-- A step that is not yet in the body brings the run nearer to it, or ends it. -/
theorem stepsToBody_irqStep (s : State) : stepsToBody (irqStep s) ≤ stepsToBody s - 1 := by
  cases hphase : s.phase with
  | idle => simp [irqStep, hphase, stepsToBody]
  | clear =>
    simp only [irqStep, hphase]
    split <;> simp [stepsToBody, hphase]
  | readSlot =>
    simp only [irqStep, hphase]
    split <;> simp [stepsToBody, hphase]
  | invoke cb => simp [irqStep_invoke hphase, stepsToBody]
  | body ops =>
    rw [(bodySteps_irqStep hphase).1]
    exact Nat.zero_le _

theorem phase_of_stepsToBody_eq_zero {s : State} (h : stepsToBody s = 0) :
    s.phase = .idle ∨ ∃ ops, s.phase = .body ops := by
  cases hphase : s.phase with
  | idle => exact .inl rfl
  | body ops => exact .inr ⟨ops, rfl⟩
  | clear | readSlot | invoke => simp [stepsToBody, hphase] at h

theorem stepsToBody_le (s : State) : stepsToBody s ≤ 3 := by
  unfold stepsToBody
  split <;> decide

theorem stepsToBody_runHandler (n : Nat) (s : State) : stepsToBody (runHandler n s) ≤ stepsToBody s - n := by
  induction n generalizing s with
  | zero => exact Nat.le_refl _
  | succ n ih =>
    unfold runHandler
    split
    · next hidle => simp [stepsToBody, hidle]
    · have hstep := stepsToBody_irqStep (interleave (some .irq) s)
      have hrest := ih (irqStep (interleave (some .irq) s))
      rw [stepsToBody_interleave] at hstep
      omega

/-- A run in its body ends within `bodySteps` steps. -/
theorem runHandler_phase {n : Nat} {s : State} (hbody : stepsToBody s = 0) (hn : bodySteps s ≤ n) :
    (runHandler n s).phase = .idle := by
  induction n generalizing s with
  | zero =>
    rcases phase_of_stepsToBody_eq_zero hbody with h | ⟨ops, h⟩
    · exact h
    · simp [bodySteps, h] at hn
  | succ n ih =>
    unfold runHandler
    split
    · assumption
    · next hrunning =>
      obtain ⟨ops, hphase⟩ := (phase_of_stepsToBody_eq_zero hbody).resolve_left hrunning
      obtain ⟨hbody', hless⟩ := bodySteps_irqStep ((interleave_irq_phase s).trans hphase)
      rw [bodySteps_interleave] at hless
      exact ih hbody' (by omega)

/-- A run that is finished has ended: three steps bring it to its body, and `bodySteps` steps are enough for that. -/
theorem finishHandler_phase (s : State) : (finishHandler s).phase = .idle := by
  have hbody := stepsToBody_runHandler 3 s
  have hle := stepsToBody_le s
  exact runHandler_phase (by omega) le_rfl

/-- Settles O43: the last thing `EV irq_handler` does is to run the handler to its end (`finishHandler_phase`). -/
theorem handlerRunEnds : Obligations.HandlerRunEnds := fun _ => ⟨_, rfl, finishHandler_phase _⟩

end Sys2Proof.Machine

/-! # A handler run with no other agent in between (R206, R208, R212) -/

namespace Sys2Proof.Machine

/-- `t` is reached from `s` by steps of the handler run. -/
def HandlerRunsTo (s t : State) : Prop := ∃ n, runHandler n s = t

theorem runHandler_add (m n : Nat) (s : State) : runHandler (m + n) s = runHandler n (runHandler m s) := by
  induction m generalizing s with
  | zero => rw [Nat.zero_add]; rfl
  | succ m ih =>
    by_cases hidle : s.phase = .idle
    · simp only [runHandler_of_idle _ hidle]
    · simp only [Nat.succ_add, runHandler, hidle, if_false, ih]

theorem HandlerRunsTo.refl (s : State) : HandlerRunsTo s s := ⟨0, rfl⟩

theorem HandlerRunsTo.trans {s t u : State} (h : HandlerRunsTo s t) (k : HandlerRunsTo t u) : HandlerRunsTo s u := by
  obtain ⟨m, rfl⟩ := h
  obtain ⟨n, rfl⟩ := k
  exact ⟨m + n, runHandler_add m n s⟩

theorem HandlerRunsTo.step {s t : State} (hbetween : s.between = []) (ht : irqStep s = t) : HandlerRunsTo s t :=
  ⟨1, (runHandler_succ 0 hbetween).trans ht⟩

/-- A run has one end: the ended state it reaches is the one it is finished in. -/
theorem finishHandler_of_runsTo {s t : State} (h : HandlerRunsTo s t) (ht : t.phase = .idle) :
    finishHandler s = t := by
  obtain ⟨n, rfl⟩ := h
  have hidle := finishHandler_phase s
  obtain ⟨m, hm⟩ : HandlerRunsTo s (finishHandler s) := ⟨3 + bodySteps (runHandler 3 s), runHandler_add ..⟩
  rw [← hm] at hidle ⊢
  calc runHandler m s = runHandler n (runHandler m s) := (runHandler_of_idle n hidle).symm
    _ = runHandler m (runHandler n s) := by rw [← runHandler_add, ← runHandler_add, Nat.add_comm]
    _ = runHandler n s := runHandler_of_idle m ht

/-- In a quiet state `EV irq_handler` answers the ended state that the delivered run reaches. -/
theorem exec_evIrqHandler_of_runsTo {s t : State} (h : HandlerQuiet s) (hruns : HandlerRunsTo (deliver s) t)
    (ht : t.phase = .idle) : exec .evIrqHandler s = .next t := by
  rw [exec, execEvIrqHandler_of_quiet h, finishHandler_of_runsTo hruns ht]

/-- Settles O42: the first step of the run faults and ends it (`irqStep_clear_unclocked`). -/
theorem handlerUnclocked : Obligations.HandlerUnclocked := by
  intro s h hc
  rw [exec_evIrqHandler_of_runsTo h (.step h.1 (irqStep_clear_unclocked rfl hc)) rfl, ← h.2]
  rfl

/-- A delivered run with the clock on after its first step: the status is clear, and the slot is read next (R206). -/
def State.statusCleared (s : State) : State :=
  { s with
    regs := clearStatus s.regs,
    history := s.history ++ [writeEvent .irq .intStatus 0#32],
    irq := { s.irq with todo := [], ret := .nothing },
    phase := .readSlot }

theorem runsTo_statusCleared {s : State} (h : HandlerQuiet s) (hc : 0 < s.clkCount) :
    HandlerRunsTo (deliver s) s.statusCleared :=
  .step h.1 (irqStep_clear rfl hc)

/-- Settles O40: the run clears the status, finds the slot empty and returns. -/
theorem handlerWithoutCallback : Obligations.HandlerWithoutCallback := by
  intro s h hc hcb
  have hreturn : irqStep s.statusCleared = _ := irqStep_readSlot_of_none rfl hcb
  rw [exec_evIrqHandler_of_runsTo h ((runsTo_statusCleared h hc).trans (.step h.1 hreturn)) rfl]
  simp [handlerReturn, emit, State.statusCleared, clearStatus, h.2]

/-! ## The body of the callback (R207) -/

/-- What the part of a run that lies in its body keeps of the machine, so long as nothing faults. -/
structure RunKeeps (s t : State) : Prop where
  params : t.params = s.params
  faults : t.faults = s.faults
  status : s.regs.intStatus = 0#6 → t.regs.intStatus = 0#6
  history : ∃ es, t.history = s.history ++ es ∧ ∀ e ∈ es, BodyEvent e

theorem runKeeps_of_eq {s t : State} (hparams : t.params = s.params) (hfaults : t.faults = s.faults)
    (hregs : t.regs = s.regs) (hhistory : t.history = s.history) : RunKeeps s t :=
  ⟨hparams, hfaults, by rw [hregs]; exact id, [], by rw [hhistory, List.append_nil], List.forall_mem_nil _⟩

theorem RunKeeps.trans {s t u : State} (h : RunKeeps s t) (k : RunKeeps t u) : RunKeeps s u := by
  obtain ⟨es, hes, hbody⟩ := h.history
  obtain ⟨fs, hfs, hbody'⟩ := k.history
  exact
    { params := k.params.trans h.params
      faults := k.faults.trans h.faults
      status := k.status ∘ h.status
      history := ⟨es ++ fs, by rw [hfs, hes, List.append_assoc], List.forall_mem_append.mpr ⟨hbody, hbody'⟩⟩ }

/-- The handler run stands in its body, with the operations `ops` not yet begun, and no other agent comes in between. -/
structure InBody (ops : List CtrlOp) (s : State) : Prop where
  between : s.between = []
  phase : s.phase = .body ops

/-- An action of the body that does not fault: done or refused, it leaves the run in the body. -/
theorem inBody_irqStep {a : Action} {rest : List Action} {ops : List CtrlOp} {s : State} (h : InBody ops s)
    (htodo : s.irq.todo = a :: rest) (hfree : s.clkCount = 0 → accessOf a = none) :
    InBody ops (irqStep s) ∧ RunKeeps s (irqStep s)
      ∧ ((irqStep s).irq.todo = rest ∨ (irqStep s).irq.todo = [])
      ∧ (irqStep s).clkCount = if a = .clockDisable then s.clkCount - 1 else s.clkCount := by
  cases ha : act .irq a s with
  | done t ret =>
    have k := bodyKeeps_of_done ha
    rw [irqStep_of_done h.phase htodo ha]
    exact ⟨⟨k.between.trans h.between, k.phase.trans h.phase⟩, ⟨k.params, k.faults, k.status, k.history⟩, .inl rfl,
      k.clkCount⟩
  | refuse why =>
    have hclk : a = .clockDisable → s.clkCount = 0 := by
      rintro rfl
      by_contra hc
      simp [act, actClockDisable, hc] at ha
    rw [irqStep_of_refused h.phase htodo ha]
    refine ⟨⟨h.between, h.phase⟩, runKeeps_of_eq rfl rfl rfl rfl, .inr rfl, ?_⟩
    split_ifs with hdisable
    · exact (hclk hdisable).trans (by rw [hclk hdisable])
    · rfl
  | fault f =>
    obtain ⟨hc, r, hr, -⟩ := act_fault ha
    exact absurd ((hfree hc).symm.trans hr) nofun

/-- What is left of an operation that neither faults nor changes the clock count runs to its end. -/
theorem actions_run {ops : List CtrlOp} {todo : List Action} {s : State} (h : InBody ops s)
    (htodo : s.irq.todo = todo) (hclk : .clockDisable ∉ todo)
    (hfree : s.clkCount = 0 → ∀ a ∈ todo, accessOf a = none) :
    ∃ t, HandlerRunsTo s t ∧ RunKeeps s t ∧ InBody ops t ∧ t.irq.todo = [] ∧ t.clkCount = s.clkCount := by
  induction todo generalizing s with
  | nil => exact ⟨s, .refl s, runKeeps_of_eq rfl rfl rfl rfl, h, htodo, rfl⟩
  | cons a rest ih =>
    obtain ⟨ha, hrest⟩ := not_or.mp (List.mem_cons.not.mp hclk)
    obtain ⟨hbody, hkeeps, htodo', hclk'⟩ := inBody_irqStep h htodo fun hc => hfree hc a List.mem_cons_self
    rw [if_neg (Ne.symm ha)] at hclk'
    have hruns : HandlerRunsTo s (irqStep s) := .step h.between rfl
    rcases htodo' with htodo' | htodo'
    · obtain ⟨t, hruns', hkeeps', ht⟩ :=
        ih hbody htodo' hrest fun hc a ha => hfree (hclk'.symm.trans hc) a (List.mem_cons_of_mem _ ha)
      exact ⟨t, hruns.trans hruns', hkeeps.trans hkeeps', hclk' ▸ ht⟩
    · exact ⟨irqStep s, hruns, hkeeps, hbody, htodo', hclk'⟩

/-! ## The plan of an operation of the body: where it first accesses a register (R171 to R184) -/

/-- The batch argument that is admitted is 0 or 1 (R171). -/
theorem eq_of_checkBatchArg_eq_none {u : Word} {s : State} (h : checkBatchArg u s = none) : u = 0#32 ∨ u = 1#32 := by
  unfold checkBatchArg at h
  split_ifs at h with _ hone hzero
  · exact .inr hone
  · exact .inl hzero

theorem clockDisable_not_mem_put (b : Bool) (r : Reg) (v : Word) : .clockDisable ∉ put b r v := by
  cases b <;> simp [put]

theorem clockDisable_not_mem_putm (b : Bool) (r : Reg) (v m : Word) : .clockDisable ∉ putm b r v m := by
  cases b <;> simp [putm]

/-- Only `clock_disable` changes the clock count in a body (R180, R181). -/
theorem clockDisable_not_mem_ctrlPlan {op : CtrlOp} {s : State} {todo : List Action} (hop : op ≠ .clockDisable)
    (hplan : ctrlPlan op s = .actions todo) : .clockDisable ∉ todo := by
  cases op <;> simp only [ctrlPlan] at hplan
  case clockDisable => exact absurd rfl hop
  case configureGeometry =>
    split at hplan <;> cases hplan
    simp [geometryPlan, clockDisable_not_mem_putm]
  case configureLayer =>
    split_ifs at hplan
    split at hplan <;> cases hplan
    unfold layerPlan matrixPlan
    split <;> simp [clockDisable_not_mem_put, clockDisable_not_mem_putm]
  all_goals
    cases hplan
    simp [putm]

/-- An operation with no first access makes none: recorded in the batch, or of an action that reaches no register. -/
theorem accessOf_of_mem_ctrlPlan {op : CtrlOp} {s : State} {todo : List Action} (hop : firstAccess op = none)
    (hplan : ctrlPlan op s = .actions todo) : ∀ a ∈ todo, accessOf a = none := by
  cases op <;> simp only [ctrlPlan] at hplan
  case configureGeometry width height refreshRate bpc u =>
    split at hplan <;> cases hplan
    next harg =>
      rcases eq_of_checkBatchArg_eq_none harg with rfl | rfl
      · cases hop
      · simp [geometryPlan, putm, accessOf]
  case configureLayer index address pitch format u =>
    split_ifs at hplan with hindex
    split at hplan <;> cases hplan
    next harg =>
      rcases eq_of_checkBatchArg_eq_none harg with rfl | rfl
      · simp [firstAccess, not_not.mp hindex] at hop
      · rw [beq_self_eq_true, layerPlan_batched]
        simp [accessOf]
  case start | stop | enableVblank | disableVblank => cases hop
  all_goals
    cases hplan
    simp [accessOf]

/-- An operation with a first access begins with it, and there it faults with the clock off (R78, R117). -/
theorem ctrlPlan_of_firstAccess {op : CtrlOp} {r : Reg} (hop : firstAccess op = some r) (s : State) :
    ∃ a rest, ctrlPlan op s = .actions (a :: rest)
      ∧ ∀ t : State, t.clkCount = 0 → act .irq a t = .fault (.unclockedAccess (regOffset t.params.offsets r)) := by
  have hzero : checkBatchArg 0#32 s = none := by simp [checkBatchArg]
  have hmasked : ∀ r, r ≠ .intStatus → ∀ t : State, t.clkCount = 0 →
      act .irq (.maskedRead r) t = .fault (.unclockedAccess (regOffset t.params.offsets r)) :=
    fun _ hr _ hc => act_maskedRead_unclocked hr hc
  cases op <;> simp only [firstAccess] at hop
  case configureGeometry width height refreshRate bpc u =>
    split_ifs at hop with hu
    cases hop
    exact ⟨_, _, by simp only [ctrlPlan, hu, hzero]; rfl, hmasked _ nofun⟩
  case configureLayer index address pitch format u =>
    split_ifs at hop with hu
    cases hop
    obtain ⟨rfl, rfl⟩ := hu
    exact ⟨_, _, by simp only [ctrlPlan, hzero]; rfl, fun _ hc => act_wr_unclocked hc⟩
  case start | stop | enableVblank | disableVblank =>
    cases hop
    exact ⟨_, _, rfl, hmasked _ nofun⟩
  all_goals cases hop

/-! ## One operation of the body, then all of them -/

/-- The state after the body has issued an operation of plan `todo`, with the operations `ops` after it (R206). -/
def State.bodyIssued (ops : List CtrlOp) (todo : List Action) (s : State) : State :=
  { s with phase := .body ops, irq := { s.irq with todo := todo, ret := .nothing } }

section

variable {op : CtrlOp} {ops : List CtrlOp} {s : State} (h : InBody (op :: ops) s) (htodo : s.irq.todo = [])
include h htodo

theorem irqStep_issue_actions {todo : List Action}
    (hplan : ctrlPlan op { s with phase := .body ops } = .actions todo) : irqStep s = s.bodyIssued ops todo := by
  rw [irqStep_issue h.phase htodo, issue, plan, hplan]
  rfl

/-- An operation that faults nowhere is refused or runs to its end, and only `clock_disable` changes the clock count. -/
theorem operation_runs (hfree : s.clkCount = 0 → firstAccess op = none) :
    ∃ t, HandlerRunsTo s t ∧ RunKeeps s t ∧ InBody ops t ∧ t.irq.todo = []
      ∧ t.clkCount = if op = .clockDisable then s.clkCount - 1 else s.clkCount := by
  cases hplan : ctrlPlan op { s with phase := .body ops } with
  | refuse why =>
    have hstep : irqStep s = refuseOperation .irq why { s with phase := .body ops } := by
      rw [irqStep_issue h.phase htodo, issue, plan, hplan]
    have hop : op ≠ .clockDisable := by rintro rfl; cases hplan
    exact ⟨_, .step h.between hstep, runKeeps_of_eq rfl rfl rfl rfl, ⟨h.between, rfl⟩, rfl, (if_neg hop).symm⟩
  | actions todo =>
    have hstep := irqStep_issue_actions h htodo hplan
    have hruns : HandlerRunsTo s (s.bodyIssued ops todo) := .step h.between hstep
    have hkeeps : RunKeeps s (s.bodyIssued ops todo) := runKeeps_of_eq rfl rfl rfl rfl
    have hbody : InBody ops (s.bodyIssued ops todo) := ⟨h.between, rfl⟩
    by_cases hop : op = .clockDisable
    · subst hop
      cases hplan
      obtain ⟨hbody', hkeeps', htodo', hclk⟩ := inBody_irqStep hbody rfl fun _ => rfl
      exact ⟨_, hruns.trans (.step h.between rfl), hkeeps.trans hkeeps', hbody', htodo'.elim id id, hclk⟩
    · obtain ⟨t, hruns', hkeeps', ht⟩ :=
        actions_run hbody rfl (clockDisable_not_mem_ctrlPlan hop hplan) fun hc =>
          accessOf_of_mem_ctrlPlan (hfree hc) hplan
      exact ⟨t, hruns.trans hruns', hkeeps.trans hkeeps', if_neg hop ▸ ht⟩

/-- An operation that accesses a register with the clock off faults at its first access and ends the run (R206, R212). -/
theorem operation_faults {r : Reg} (hc : s.clkCount = 0) (hr : firstAccess op = some r) :
    ∃ t, HandlerRunsTo s t ∧ t.phase = .idle ∧ t.regs = s.regs ∧ t.history = s.history
      ∧ t.irq.ret = .faulted (.unclockedAccess (regOffset s.params.offsets r))
      ∧ t.faults = faultsWith (.unclockedAccess (regOffset s.params.offsets r)) s.faults := by
  obtain ⟨a, rest, hplan, hfault⟩ := ctrlPlan_of_firstAccess hr { s with phase := .body ops }
  have hruns := HandlerRunsTo.step h.between (irqStep_issue_actions h htodo hplan)
  exact ⟨_, hruns.trans (.step h.between (irqStep_of_fault rfl rfl (hfault _ hc))), rfl, rfl, rfl, rfl, rfl⟩

end

/-- How a run that stands in its body at `s` and appends the events `es` there has ended at `t`: it has returned HANDLED
last of all, or an access to the given register has faulted and there is no return (R206, R207, R212). -/
def BodyEnds (fault : Option Reg) (es : List Event) (s t : State) : Prop :=
  match fault with
  | none =>
    t.irq.ret = .handler .handled ∧ t.faults = s.faults ∧ t.history = s.history ++ es ++ [.handlerReturn .handled]
  | some r =>
    t.irq.ret = .faulted (.unclockedAccess (regOffset s.params.offsets r))
      ∧ t.faults = faultsWith (.unclockedAccess (regOffset s.params.offsets r)) s.faults ∧ t.history = s.history ++ es

theorem BodyEnds.after {fault : Option Reg} {es fs : List Event} {s t u : State} (h : BodyEnds fault fs t u)
    (k : RunKeeps s t) (hes : t.history = s.history ++ es) : BodyEnds fault (es ++ fs) s u := by
  cases fault <;> simpa only [BodyEnds, k.params, k.faults, hes, List.append_assoc] using h

/-- The body runs to its end, or to the access that `bodyFault` names. -/
theorem body_runs {ops : List CtrlOp} {s : State} (h : InBody ops s) (htodo : s.irq.todo = [])
    (hstatus : s.regs.intStatus = 0#6) :
    ∃ t es, HandlerRunsTo s t ∧ t.phase = .idle ∧ t.regs.intStatus = 0#6 ∧ (∀ e ∈ es, BodyEvent e)
      ∧ BodyEnds (bodyFault s.clkCount ops) es s t := by
  induction ops generalizing s with
  | nil =>
    exact ⟨_, [], .step h.between (irqStep_return h.phase htodo), rfl, hstatus, List.forall_mem_nil _, rfl, rfl,
      by rw [List.append_nil]; rfl⟩
  | cons op ops ih =>
    unfold bodyFault
    split
    · next r hr =>
      obtain ⟨hc, hr⟩ : s.clkCount = 0 ∧ firstAccess op = some r := by simpa using hr
      obtain ⟨t, hruns, hidle, hregs, hhistory, hret, hfaults⟩ := operation_faults h htodo hc hr
      exact ⟨t, [], hruns, hidle, hregs ▸ hstatus, List.forall_mem_nil _, hret, hfaults,
        by rw [hhistory, List.append_nil]⟩
    · next hnone =>
      obtain ⟨t, hruns, hkeeps, hbody, htodo', hclk⟩ := operation_runs h htodo (by simpa using hnone)
      obtain ⟨es, hes, hevents⟩ := hkeeps.history
      obtain ⟨u, fs, hruns', hidle, hstatus', hevents', hends⟩ := ih hbody htodo' (hkeeps.status hstatus)
      rw [hclk] at hends
      exact ⟨u, es ++ fs, hruns.trans hruns', hidle, hstatus', List.forall_mem_append.mpr ⟨hevents, hevents'⟩,
        hends.after hkeeps hes⟩

/-! ## A run with a callback (R206, R207, R208) -/

/-- A delivered run with the clock on and the callback `cb` after its notification, at the start of the body. -/
def State.notified (cb : Callback) (s : State) : State :=
  { s with
    regs := clearStatus s.regs,
    history := s.history ++ [writeEvent .irq .intStatus 0#32, .notify cb.ctx],
    irq := { s.irq with todo := [], ret := .nothing },
    phase := .body (callbackBody s.params cb) }

theorem runsTo_notified {s : State} {cb : Callback} (h : HandlerQuiet s) (hc : 0 < s.clkCount)
    (hcb : s.callback = some cb) : HandlerRunsTo (deliver s) (s.notified cb) := by
  have hread : irqStep s.statusCleared = _ := irqStep_readSlot_of_some rfl hcb
  have hnotify : irqStep { s.statusCleared with phase := .invoke cb } = s.notified cb := by
    rw [irqStep_invoke rfl]
    simp [emit, State.statusCleared, State.notified]
  exact ((runsTo_statusCleared h hc).trans (.step h.1 hread)).trans (.step h.1 hnotify)

/-- Settles O41: the run reaches its body (`runsTo_notified`); an empty body returns at once, and any other one ends as
`bodyFault` says (`body_runs`). -/
theorem handlerNotifies : Obligations.HandlerNotifies := by
  intro s cb h hc hcb
  have hruns := runsTo_notified h hc hcb
  constructor
  · intro hempty
    have hreturn := irqStep_return (s := s.notified cb) (congrArg _ hempty) rfl
    rw [exec_evIrqHandler_of_runsTo h (hruns.trans (.step h.1 hreturn)) rfl]
    simp [handlerReturn, emit, State.notified, clearStatus, h.2]
  · obtain ⟨t, es, hbody, hidle, hstatus, hevents, hends⟩ := body_runs (s := s.notified cb) ⟨h.1, rfl⟩ rfl rfl
    exact ⟨t, es, exec_evIrqHandler_of_runsTo h (hruns.trans hbody) hidle, hidle, hstatus, hevents, hends⟩

/-- Settles O44: the events of the body are no notifications (`handlerNotifies`), and without a callback there is none
(`handlerWithoutCallback`). -/
theorem handlerNotifiesOnce : Obligations.HandlerNotifiesOnce := by
  intro s t h hc ht
  cases hcb : s.callback with
  | none =>
    rw [handlerWithoutCallback s h hc hcb] at ht
    cases ht
    simp [writeEvent]
  | some cb =>
    obtain ⟨-, u, es, hu, -, -, hevents, hends⟩ := handlerNotifies s cb h hc hcb
    cases hu.symm.trans ht
    obtain ⟨fs, hhistory, hfs⟩ : ∃ fs, t.history = s.history ++ [writeEvent .irq .intStatus 0#32, .notify cb.ctx] ++ fs
        ∧ ∀ e ∈ fs, ∀ x, e ≠ .notify x := by
      have hbody : ∀ e ∈ es, ∀ x, e ≠ .notify x := fun e he => (hevents e he).1
      split at hends
      · obtain ⟨-, -, hhistory⟩ := hends
        exact ⟨es ++ [.handlerReturn .handled], by rw [hhistory, List.append_assoc],
          List.forall_mem_append.mpr ⟨hbody, List.forall_mem_singleton.mpr nofun⟩⟩
      · obtain ⟨-, -, hhistory⟩ := hends
        exact ⟨es, hhistory, hbody⟩
    rw [hhistory, List.filter_append, List.filter_append, (List.filter_eq_nil_iff (l := fs)).mpr ?_, List.append_nil]
    · rfl
    · intro e he
      cases e with
      | notify x => exact absurd rfl (hfs _ he x)
      | _ => nofun

end Sys2Proof.Machine

/-! # Reset and bind (R230 to R232) -/

namespace Sys2Proof.Machine

/-- Everything a bind that makes an instance says: what it found, the instance, and whether it warns (R211, R230). -/
theorem eq_instantiate_of_bindInstance {i : BindInput} {s : State} {w : Option CtrlError}
    (hbound : bindInstance i = .bound s w) :
    (i.registerSpace = true ∧ i.interruptLine = true)
      ∧ s = State.instantiate i.drawn i.params i.variant (overrideValue i.overrideField) i.client
      ∧ w = if configurationInvalid i then some .invalidConfigurationData else none := by
  unfold bindInstance at hbound
  split at hbound
  · next hfound =>
    cases hbound
    exact ⟨Bool.and_eq_true_iff.mp hfound, rfl, rfl⟩
  · cases hbound

/-- A new instance meets the invariant, whatever was drawn and whatever bind found: it has no batch, no fault and no
operation in progress (R232). -/
theorem inv_instantiate (drawn : Regs) (p : Params) (v : Variant) (fifoOverride : Word) (batchCapable : Bool) :
    Inv (State.instantiate drawn p v fifoOverride batchCapable) := by
  refine ⟨?admitted, ?distinct, ?capable, ?todo⟩
  case admitted => exact List.forall_mem_nil _
  case distinct => exact List.nodup_nil
  case capable => exact fun hbatch => absurd rfl hbatch
  case todo => exact irqTodoOnlyInBody_of_todo rfl

/-- Settles O58: `State.reset` and every instance of bind are a `State.instantiate` (`inv_instantiate`). -/
theorem invariantAtBind : Obligations.InvariantAtBind := by
  refine ⟨inv_instantiate .., fun i s w hbound => ?_⟩
  obtain ⟨-, rfl, -⟩ := eq_instantiate_of_bindInstance hbound
  exact inv_instantiate ..

/-- Settles O59: the instance of bind is `State.instantiate` of its input (`eq_instantiate_of_bindInstance`), whose
fields are read off; the override is the one field that depends on the form of the input. -/
theorem bindLeaves : Obligations.BindLeaves := by
  intro i s w hbound
  obtain ⟨-, rfl, -⟩ := eq_instantiate_of_bindInstance hbound
  refine ⟨rfl, rfl, rfl, rfl, rfl, rfl, rfl, rfl, rfl, ?override⟩
  case override =>
    change overrideValue i.overrideField = _
    cases i.overrideField with
    | absent => rfl
    | value v => rfl
    | unparsable => rfl

end Sys2Proof.Machine

/-! # Where the named fields stand (R22 to R33) -/

namespace Sys2Proof.Machine

/-- A field that ends inside the word is read back at its own position. -/
theorem extractLsb'_placed_same {k lo : Nat} (x : BitVec k) (h : lo + k ≤ 32) :
    (placed x lo).extractLsb' lo k = x := by
  apply BitVec.eq_of_getLsbD_eq
  intro i hi
  have hword : lo + i < 32 := by omega
  simp [placed, hi, hword]

/-- Nothing of a field is read at positions wholly below it or wholly above it. -/
theorem extractLsb'_placed_of_disjoint {k lo k' lo' : Nat} (x : BitVec k) (h : lo' + k' ≤ lo ∨ lo + k ≤ lo') :
    (placed x lo).extractLsb' lo' k' = 0#k' := by
  apply BitVec.eq_of_getLsbD_eq
  intro i hi
  rcases h with hbelow | habove
  · have hlow : lo' + i < lo := by omega
    simp [placed, hlow]
  · have hbit : x.getLsbD (lo' + i - lo) = false := x.getLsbD_of_ge _ (by omega)
    simp [placed, hbit]

/-- Settles O3: a register's word is the union of its placed fields, and at the positions of one field it reads that
field (`extractLsb'_placed_same`) and nothing of the others (`extractLsb'_placed_of_disjoint`). -/
theorem fieldPositions : Obligations.FieldPositions := by
  intro g
  refine ⟨?intEnable, ?intStatus, ?engineEn, ?modeMemory, ?width, ?matrixEnable, ?mtxSel, ?height, ?inputFormat,
    ?inputSwap, ?pitch, rfl, ?fifoUnderflowEn, ?fifoPseudoSize, ?fifoThreshold, rfl,
    fun r => regWord_and_unnamedMask r g, rfl, rfl, rfl, rfl, rfl, rfl, rfl, rfl, rfl, rfl⟩
  all_goals
    simp only [regWord, BitVec.extractLsb'_or]
    simp [extractLsb'_placed_same, extractLsb'_placed_of_disjoint]

end Sys2Proof.Machine
